-- ==== Sys2Proof/Word.lean ====
section
/-! DEFINITION. The byte and the sixteen-bit word of the station frame (spec/11, section 11.9). -/

namespace Sys2Proof

/-- One byte of a frame or of a record image. -/
abbrev Byte := BitVec 8

/-- The CHECK field of a frame, a sixteen-bit number. -/
abbrev Word16 := BitVec 16

end Sys2Proof
end

