-- ==== Sys2Proof/Syntax.lean ====
section
/-! DEFINITION. The commands of the HC40: one constructor of `Instr` for each row of spec/opcode_table.json,
and the names their operands are built from. -/

namespace Sys2Proof

/-! ## Names of the manual -/

/-- The three masters (00_scope, section 4). -/
inductive Master where
  | front | chassis | service
  deriving DecidableEq, Repr, Inhabited

/-- The four station ports (00_scope, 1.2). -/
inductive Port where
  | front | chassis | service | rear
  deriving DecidableEq, Repr, Inhabited

/-- A claimant is a master or UNIT (R106). -/
inductive Claimant where
  | front | chassis | service | unit
  deriving DecidableEq, Repr, Inhabited

/-- The six coupling states (R59). `localAwake` is the state LOCAL. -/
inductive CouplingState where
  | quiet | localAwake | mating | probing | serving | parting
  deriving DecidableEq, Repr, Inhabited

/-- Vehicle motion as the part knows it (R59). -/
inductive Motion where
  | unknown | parked | moving
  deriving DecidableEq, Repr, Inhabited

/-- Unit quality (R79). -/
inductive Quality where
  | complete | degraded
  deriving DecidableEq, Repr, Inhabited

/-- The cause set (R79), one mark per cause. -/
structure Causes where
  timeout : Bool
  store : Bool
  missingFunction : Bool
  lampFault : Bool
  planFallback : Bool
  chainLost : Bool
  deriving DecidableEq, Repr, Inhabited

/-- REAR states (R174). -/
inductive RearState where
  | vacant | sensed | feeding | linked | lost | barred
  deriving DecidableEq, Repr, Inhabited

/-- Results a reply carries (11.4). -/
inductive Result where
  | done | accepted | busy | forbidden | badArg | notFound | refusedState | heldBy | noRoom
  | unreachable | badPlan
  deriving DecidableEq, Repr, Inhabited

/-- The level of a switch contact (R146). -/
inductive Contact where
  | opened | closed | unknown
  deriving DecidableEq, Repr, Inhabited

/-- Mode of a claim (R106). -/
inductive ClaimMode where
  | steady | flash | off
  deriving DecidableEq, Repr, Inhabited

/-- Level a claim carries: DEFAULT or a number (R106). -/
inductive LevelArg where
  | dflt
  | num (n : Nat)
  deriving DecidableEq, Repr, Inhabited

/-- Record kinds (R3). -/
inductive RecKind where
  | lamp | sensor | actuator | unit
  deriving DecidableEq, Repr, Inhabited

/-- Load class of a lamp (R4). `noLoad` is NONE. -/
inductive LoadClass where
  | noLoad | led | filament | short
  deriving DecidableEq, Repr, Inhabited

/-- Result of a CHECK step (R97). `noLoad` is NONE. -/
inductive CheckResult where
  | noLoad | load | short
  deriving DecidableEq, Repr, Inhabited

/-- The measurement source's arbiter mode (R90). -/
inductive ArbMode where
  | fixed | rotating
  deriving DecidableEq, Repr, Inhabited

/-- Target kind of a probe program (R85). -/
inductive ProbeTarget where
  | lamp | sensor | actuator
  deriving DecidableEq, Repr, Inhabited

/-- Step kind of a probe program (R85). -/
inductive StepKind where
  | classify | verify | measure | check
  deriving DecidableEq, Repr, Inhabited

/-- Mode of a probe program (R89). -/
inductive ProbeMode where
  | step | sweep | demand | cycle
  deriving DecidableEq, Repr, Inhabited

/-- Demand condition of a probe program (R85). -/
inductive DemandCond where
  | parked | coupled
  deriving DecidableEq, Repr, Inhabited

/-- Direction in which PROBE_RUN builds its list (R85). -/
inductive Direction where
  | up | down
  deriving DecidableEq, Repr, Inhabited

/-- One phase of an encoder's pair (R156). -/
inductive Phase where
  | a | b
  deriving DecidableEq, Repr, Inhabited

/-- Direction of a DIRECTION run (R167). -/
inductive RunDir where
  | a | b
  deriving DecidableEq, Repr, Inhabited

/-- The copy a PLAN_READ names (R51). -/
inductive PlanCopy where
  | active | staging | stored
  deriving DecidableEq, Repr, Inhabited

/-- What FAULT_CLEAR names: one channel number or ALL (R138). -/
inductive ClearTarget where
  | channel (n : Nat)
  | all
  deriving DecidableEq, Repr, Inhabited

/-- The filter of a notice queue: a subset of the five names (R24). -/
structure Filter where
  lamp : Bool
  sensor : Bool
  actuator : Bool
  unit : Bool
  unitStatus : Bool
  deriving DecidableEq, Repr, Inhabited

/-! ## The wiring plan (chapter 3) -/

/-- One binding of a lamp entry: a function code and a binding level (R39). -/
structure Binding where
  fn : Nat
  level : Nat
  deriving DecidableEq, Repr, Inhabited

/-- The expected class of a lamp entry (R39). -/
inductive ExpectedClass where
  | led | filament
  deriving DecidableEq, Repr, Inhabited

/-- Lamp entry (R39). -/
structure LampEntry where
  bindings : List Binding
  openMask : Bool
  expected : Option ExpectedClass
  deriving DecidableEq, Repr, Inhabited

/-- Class of a sensor entry (R40). -/
inductive SensorClass where
  | switch | resistive | unused
  deriving DecidableEq, Repr, Inhabited

/-- Calibration part (R40). -/
structure Calib where
  offset : Nat
  span : Nat
  low : Nat
  high : Nat
  deriving DecidableEq, Repr, Inhabited

/-- Sensor entry (R40). -/
structure SensorEntry where
  cls : SensorClass
  fn : Option Nat
  wake : Bool
  calib : Option Calib
  deriving DecidableEq, Repr, Inhabited

/-- Class of an actuator entry (R41). -/
inductive ActClass where
  | motor | valve
  deriving DecidableEq, Repr, Inhabited

/-- Interlock of an actuator entry (R41, R165). -/
inductive Interlock where
  | parked | coupled | uncoupled
  | senseOpened (fn : Nat)
  | senseClosed (fn : Nat)
  deriving DecidableEq, Repr, Inhabited

/-- Position link of an actuator entry (R41): counter 0 is PE0 and 1 is PE1. -/
structure PosLink where
  counter : Nat
  home : Nat
  low : Nat
  high : Nat
  deriving DecidableEq, Repr, Inhabited

/-- Actuator entry (R41). -/
structure ActEntry where
  cls : ActClass
  fn : Option Nat
  runLimit : Option Nat
  interlocks : List Interlock
  link : Option PosLink
  deriving DecidableEq, Repr, Inhabited

/-- The complete contents of one plan entry, as PLAN_WRITE carries it (R50). -/
inductive EntryArg where
  | lamp (e : LampEntry)
  | sensor (e : SensorEntry)
  | actuator (e : ActEntry)
  deriving DecidableEq, Repr, Inhabited

/-- A plan: an ident and 40 entries (R38). -/
structure Plan where
  ident : Nat
  lamps : Vector LampEntry 24
  sensors : Vector SensorEntry 10
  acts : Vector ActEntry 6
  deriving DecidableEq, Repr

/-! ## Operands -/

/-- Header of a request as the port hands it on (R188): the master's station, whether DEST was 15,
the SRC nibble the reply goes back to, and the correlation number. -/
structure ReqHdr where
  station : Master
  broadcast : Bool
  src : Nat
  corr : Byte
  deriving DecidableEq, Repr, Inhabited

/-- Body of a HELLO or SUMMARY (R177, R180). -/
structure Report where
  coupling : CouplingState
  quality : Quality
  causes : Causes
  unitsBehind : Nat
  deriving DecidableEq, Repr, Inhabited

/-- The supplies and the driver temperature as a supply reset finds them (R60, R142, R143, R161). `batteryDrive` says
that BAT_SUP is at or above the actuator drive threshold. -/
structure SupplyView where
  cplPresent : Bool
  cplAbove22 : Bool
  hot : Bool
  batteryDrive : Bool
  deriving DecidableEq, Repr, Inhabited

/-- The program a PROBE_RUN carries (R99). `none` stands for a value outside the item's names. -/
structure RunArgs where
  target : Option ProbeTarget
  first : Nat
  count : Nat
  direction : Option Direction
  kind : Option StepKind
  mode : Option ProbeMode
  demand : Option DemandCond
  period : Nat
  deriving DecidableEq, Repr, Inhabited

/-! ## The commands -/

/-- One constructor per row of spec/opcode_table.json. An operand that a request can carry outside its
range stays a plain number (or an Option, `none` for a value outside the names), since the request's own
rule judges it. -/
inductive Instr where
  -- supplies, lines and pins
  | supplyReset (v : SupplyView)
  | powerLoss
  | cplSupPresenceChange (present : Bool)
  | supplyLowChange (low : Bool)
  | thermalWarnChange (warn : Bool)
  | driveSupplyChange (present : Bool)
  | cplSenseAsserted
  | cplSenseNegated
  | rearSenseAsserted
  | rearSenseNegated
  | stopForceAsserted
  | stopForceNegated
  | svcHoldAsserted
  | svcHoldNegated
  | feedOvercurrent
  | driverTrip (ch : Fin 24)
  | switchPinChange (i : Fin 10) (closed : Bool)
  | encoderStep (c : Fin 2) (phase : Phase)
  | phaseError (c : Fin 2)
  | stallCurrentChange (o : Fin 6) (above : Bool)
  -- frames
  | frameFirstByte (p : Port) (b : Byte)
  | frameReceived (p : Port) (bytes : List Byte)
  | frameSendStart (p : Port)
  | frameSendEnd (p : Port)
  -- requests of every master
  | ping (h : ReqHdr)
  | unitStatus (h : ReqHdr)
  | unitAck (h : ReqHdr)
  | funcStatus (h : ReqHdr) (fn : Nat)
  | noticeFetch (h : ReqHdr)
  | noticeFilter (h : ReqHdr) (set : Option Filter)
  | noticeResync (h : ReqHdr)
  | recRead (h : ReqHdr) (tag : Nat)
  | recList (h : ReqHdr) (kind : Option RecKind) (start : Nat)
  | claim (h : ReqHdr) (fn : Nat) (mode : Option ClaimMode) (level : LevelArg)
  | release (h : ReqHdr) (fn : Nat)
  | releaseAll (h : ReqHdr)
  | actTake (h : ReqHdr) (out : Nat)
  | actMoveDirection (h : ReqHdr) (out : Nat) (dir : RunDir)
  | actMoveTarget (h : ReqHdr) (out : Nat) (target : Nat)
  | actMoveEnergise (h : ReqHdr) (out : Nat)
  | actStop (h : ReqHdr) (out : Nat)
  | actGive (h : ReqHdr) (out : Nat)
  -- requests of some masters
  | unitAssign (h : ReqHdr) (number : Nat)
  | motion (h : ReqHdr) (value : Option Motion)
  | phase (h : ReqHdr)
  | faultClear (h : ReqHdr) (target : ClearTarget)
  | reprobe (h : ReqHdr)
  | unitSet (h : ReqHdr) (mode : Option ArbMode)
  | unitClear (h : ReqHdr)
  | recRetire (h : ReqHdr) (tag : Nat)
  | recEditOpenMask (h : ReqHdr) (tag : Nat) (set : Bool)
  | recEditCalibration (h : ReqHdr) (tag : Nat) (edit : Option Calib)
  | planOpen (h : ReqHdr)
  | planWrite (h : ReqHdr) (index : Nat) (entry : EntryArg)
  | planCommit (h : ReqHdr) (ident : Nat)
  | planDiscard (h : ReqHdr)
  | planRead (h : ReqHdr) (copy : Option PlanCopy) (index : Nat)
  | probeRun (h : ReqHdr) (sq : Nat) (args : RunArgs)
  | probeStep (h : ReqHdr) (sq : Nat)
  | probeMask (h : ReqHdr) (sq : Nat)
  | probeUnmask (h : ReqHdr) (sq : Nat)
  | probeStop (h : ReqHdr) (sq : Nat)
  | probeStatus (h : ReqHdr) (sq : Nat)
  -- frames of the unit behind
  | hello (r : Report)
  | unitAssignReply (result : Result)
  | summary (src : Nat) (r : Report)
  | upstreamForward (bytes : List Byte)
  -- expiries
  | portSilenceExpiry (m : Master)
  | rearSilenceExpiry
  | helloTimerExpiry
  | helloRepeatExpiry
  | summaryRepeatExpiry
  | idleTimerExpiry
  | debounceComplete
  | bringUpDeadlineExpiry
  | partingHoldExpiry
  | commitCompletion
  | cycleTimerExpiry (n : Fin 4)
  | flashPhaseChange
  | onSample (ch : Fin 24) (tenths : Nat)
  | clearWindowExpiry (ch : Fin 24)
  | switchDebounceExpiry (i : Fin 10)
  | runTimerExpiry (o : Fin 6)
  | stallTimerExpiry (o : Fin 6)
  -- ends of probe steps, with what was measured
  | darkClassifyEnd (cls : LoadClass) (band : Nat)
  | darkVerifyEnd (cls : LoadClass)
  | checkEnd (result : CheckResult)
  | resistiveMeasureEnd (response : Option Nat)
  deriving DecidableEq, Repr

end Sys2Proof
end

