-- ==== Sys2Proof/Decode.lean ====
section
/-! DEFINITION. The command a word spells by the bits of spec/opcode_table.json. The table gives none of its
88 rows a word of bits (every row's "fields" is empty and it has no "fixed"), so no word spells a command:
the station frames' bytes are read by Sys2Proof.Machine.parseFrame instead. -/

namespace Sys2Proof

/-- No row of the opcode table has bits, so no word is a command. -/
def decodeTableWord (_nbits _w : Nat) : Option Instr := none

end Sys2Proof
end

