-- ==== Sys2Proof/Config.lean ====
section
/-! DEFINITION. What the implementation fixes: the numbers of 00_scope section 3, the built-in plan (R48),
and the free values, which the spec leaves open and nothing in the model can evaluate. -/

namespace Sys2Proof.Config

/-! ## Numbers -/

/-- Store cells (00_scope section 3, R1). -/
abbrev cells : Nat := 60
/-- Notice queue depth (R24). -/
abbrev noticeDepth : Nat := 12
/-- Depth of a forward queue (R174). -/
abbrev forwardDepth : Nat := 4
/-- Expected current at full level of an unrecorded channel, in units (R117). -/
abbrev unrecordedBand : Nat := 20
/-- How many internal reactions one event may run (log entry 14). -/
abbrev reactFuel : Nat := 256
/-- How many steps one sequencer may end inside one event (log entry 14). -/
abbrev chainFuel : Nat := 64

/-! ## The built-in plan (R48) -/

/-- A lamp entry of the built-in plan: mask default clear, no expected class. -/
def builtInLamp (bs : List Binding) : LampEntry := ⟨bs, false, none⟩

/-- Lamp entries of R48, LC0 to LC23. -/
def builtInLamps : Vector LampEntry 24 := #v[
  builtInLamp [⟨0, 31⟩], builtInLamp [⟨1, 31⟩],
  builtInLamp [⟨5, 8⟩, ⟨2, 31⟩], builtInLamp [⟨6, 8⟩, ⟨2, 31⟩],
  builtInLamp [⟨3, 31⟩], builtInLamp [⟨4, 31⟩],
  builtInLamp [⟨9, 20⟩], builtInLamp [⟨7, 20⟩],
  builtInLamp [⟨8, 20⟩], builtInLamp [⟨8, 20⟩], builtInLamp [⟨8, 20⟩], builtInLamp [⟨8, 20⟩],
  builtInLamp [⟨10, 24⟩],
  builtInLamp [⟨0, 31⟩], builtInLamp [⟨1, 31⟩],
  builtInLamp [⟨11, 31⟩], builtInLamp [⟨13, 31⟩],
  builtInLamp [], builtInLamp [], builtInLamp [], builtInLamp [], builtInLamp [], builtInLamp [], builtInLamp []]

/-- An input not listed in R48. -/
def unusedInput : SensorEntry := ⟨.unused, none, false, none⟩

/-- Sensor entries of R48, SI0 to SI9. -/
def builtInSensors : Vector SensorEntry 10 := #v[
  ⟨.resistive, some 22, false, none⟩, ⟨.resistive, some 22, false, none⟩,
  ⟨.switch, some 23, true, none⟩, ⟨.resistive, some 24, false, none⟩,
  ⟨.switch, some 26, false, none⟩, ⟨.switch, some 27, false, none⟩,
  unusedInput, unusedInput, unusedInput, unusedInput]

/-- An output not listed in R48. -/
def unusedOutput : ActEntry := ⟨.valve, none, none, [], none⟩

/-- Actuator entries of R48, BA0 to BA5. -/
def builtInActs : Vector ActEntry 6 := #v[
  ⟨.motor, some 16, some 120, [.parked, .senseOpened 23], some ⟨0, 26, 0, 3800⟩⟩,
  ⟨.motor, some 17, some 200, [.parked], some ⟨1, 27, 0, 3000⟩⟩,
  ⟨.valve, some 18, none, [], none⟩,
  unusedOutput, unusedOutput, unusedOutput]

/-- The built-in plan, ident 1 (R48). -/
def builtInPlan : Plan := ⟨1, builtInLamps, builtInSensors, builtInActs⟩

/-! ## Free values: byte codes the spec does not state (log entry 8) -/

/-- The claim mode a byte of a CLAIM body stands for; `none` outside the three names. -/
opaque claimModeOf : Byte → Option ClaimMode
/-- The byte of a CLAIM body that stands for DEFAULT, where it is not a number 1 to 31. -/
opaque levelDefault : Byte
/-- The place of each of the five names' bit in the byte of a NOTICE_FILTER body: name k has bit `filterBits k`, in the
order LAMP, SENSOR, ACTUATOR, UNIT, UNIT_STATUS; the three other bits name nothing. -/
opaque filterBits : Equiv.Perm (Fin 8)
/-- The record kind a byte of a REC_LIST body stands for. -/
opaque recKindOf : Byte → Option RecKind
/-- The motion a byte of a MOTION body stands for. -/
opaque motionOf : Byte → Option Motion
/-- The byte of a FAULT_CLEAR body that stands for ALL, where it is not a channel number. -/
opaque clearAll : Byte
/-- The arbiter mode a byte of a UNIT_SET body stands for. -/
opaque arbModeOf : Byte → Option ArbMode
/-- The plan copy a byte of a PLAN_READ body stands for. -/
opaque planCopyOf : Byte → Option PlanCopy
/-- MASK (true), UNMASK (false) or another value, of a PROBE_MASK body. -/
opaque maskOf : Byte → Option Bool
/-- The four ACT_MOVE forms (R167). -/
inductive MoveForm where
  | directionA | directionB | target | energise
  deriving DecidableEq, Repr, Inhabited
/-- The form a byte of an ACT_MOVE body stands for. -/
opaque moveFormOf : Byte → Option MoveForm
/-- The target kind a byte of a PROBE_RUN body stands for. -/
opaque probeTargetOf : Byte → Option ProbeTarget
/-- The direction a byte of a PROBE_RUN body stands for. -/
opaque directionOf : Byte → Option Direction
/-- The step kind a byte of a PROBE_RUN body stands for. -/
opaque stepKindOf : Byte → Option StepKind
/-- The mode a byte of a PROBE_RUN body stands for. -/
opaque probeModeOf : Byte → Option ProbeMode
/-- The demand condition a byte of a PROBE_RUN body stands for. -/
opaque demandOf : Byte → Option DemandCond

/-- What a REC_EDIT asks for (R141, R154). -/
inductive EditForm where
  | maskSet | maskClear | calibSet | calibRemove | other
  deriving DecidableEq, Repr, Inhabited
/-- The edit a byte of a REC_EDIT body stands for. -/
opaque editFormOf : Byte → EditForm
/-- The kinds of plan entry (R39 to R41). -/
inductive EntryKind where
  | lamp | sensor | actuator
  deriving DecidableEq, Repr, Inhabited
/-- The entry kind a byte of a PLAN_WRITE body stands for. -/
opaque entryKindOf : Byte → Option EntryKind
/-- Set or clear, of an open mask default or a wake flag in a PLAN_WRITE body. -/
opaque flagOf : Byte → Option Bool
/-- The expected class or its absence that a byte of a PLAN_WRITE body stands for. -/
opaque expectedOf : Byte → Option (Option ExpectedClass)
/-- The class of a sensor entry that a byte of a PLAN_WRITE body stands for. -/
opaque sensorClassOf : Byte → Option SensorClass
/-- The class of an actuator entry that a byte of a PLAN_WRITE body stands for. -/
opaque actClassOf : Byte → Option ActClass
/-- The two bytes of an offset that stand for an absent calibration part, where they are not a number 0 to 3000. -/
opaque noCalib : Word16
/-- The byte of a run limit that stands for its absence, where it is not a number 1 to 250. -/
opaque noLimit : Byte
/-- The byte of a counter that stands for an absent position link, where it is not 0 or 1. -/
opaque noLink : Byte
/-- What the type byte of an interlock's place stands for; an unused place has a name of its own. -/
inductive LockForm where
  | unused | parked | coupled | uncoupled | senseOpened | senseClosed | other
  deriving DecidableEq, Repr, Inhabited
/-- The interlock a byte of a PLAN_WRITE body stands for. -/
opaque lockFormOf : Byte → LockForm

/-! ## Free values: bodies whose layout the spec does not state (log entry 9) -/

/-- The report the body of a HELLO or SUMMARY stands for. -/
opaque reportOf : List Byte → Report

/-! ## Free values: what the part computes or finds by means the spec does not state -/

/-- The 16-bit check over the ident and the entries of a stored plan (R38, log entry 51). -/
opaque planCheck : Plan → Word16
/-- Whether CPL_SUP, somewhere above 21 V, is above 22 V at a UNIT_CLEAR (R145, log entry 50). -/
opaque freshAbove22 : Nat → Bool
/-- Whether the driver temperature, somewhere above the release threshold, is above the warning threshold at a UNIT_CLEAR
(R145, log entry 50). -/
opaque freshHot : Nat → Bool

/-! ## Free values: numbers the part picks -/

/-- The correlation number of the n-th UNIT_ASSIGN this unit sends on REAR (R177, log entry 18). -/
opaque freshCorr : Nat → Byte

end Sys2Proof.Config
end

