-- ==== Sys2Proof/Machine/State.lean ====
section
/-! DEFINITION. Everything the spec gives the HC40 to hold, block by block (00_scope section 2), and the state
right after a supply reset. A timer is a mark (log entry 2): its expiry is a command. -/

namespace Sys2Proof.Machine

/-- A timer: stopped, or running toward the end its rule gives (log entry 2). -/
inductive Timer where
  | stopped | running
  deriving DecidableEq, Repr, Inhabited

/-! ## External inputs -/

/-- The lines, the strap and the supply comparators the rules read (00_scope 2.2, R60, R142, R143). -/
structure Lines where
  cplSense : Bool
  rearSense : Bool
  stopForce : Bool
  svcHold : Bool
  /-- PLANSEL high (R46). -/
  planSel : Bool
  /-- The coupling supply is at or above 16 V (R60). -/
  cplPresent : Bool
  /-- CPL_SUP was last told above 22 V: it has not fallen below 21 V since (R142, read at the resets, R145). -/
  cplAbove22 : Bool
  /-- The driver temperature was last told above the warning threshold: it has not fallen below the release threshold
  since (R143, read at the resets, R145). -/
  hot : Bool
  deriving DecidableEq, Repr

/-! ## Records and the store (chapter 1) -/

/-- States of a LAMP record (R4). -/
inductive LampState where
  | present | missing | opened | short | locked
  deriving DecidableEq, Repr, Inhabited

/-- Fields of a LAMP record after the header (R4). -/
structure LampRec where
  loadClass : LoadClass
  expected : Nat
  last : Nat
  openMask : Bool
  bound : List Nat
  unassigned : Bool
  state : LampState
  deriving DecidableEq, Repr, Inhabited

/-- Band of a SENSOR record (R5). `outside` is NONE. -/
inductive Band where
  | outside | low | normal | high
  deriving DecidableEq, Repr, Inhabited

/-- States of a SENSOR record (R5). -/
inductive SensorState where
  | valid | opened | short | stale
  deriving DecidableEq, Repr, Inhabited

/-- Fields of a SENSOR record after the header (R5). -/
structure SensorRec where
  /-- SWITCH or RESISTIVE: true for RESISTIVE. -/
  resistive : Bool
  raw : Nat
  value : Nat
  band : Band
  changeCount : Byte
  fn : Option Nat
  calib : Option Calib
  state : SensorState
  deriving DecidableEq, Repr, Inhabited

/-- Run states of an actuator (R160). -/
inductive RunState where
  | idle | runA | runB | energised
  deriving DecidableEq, Repr, Inhabited

/-- Run end reasons (R162), in the order of 11.9. -/
inductive EndReason where
  | target | limit | timeout | stopped | given | interlock | silence | stall | supply | parting
  deriving DecidableEq, Repr, Inhabited

/-- States of an ACTUATOR record (R6). -/
inductive ActState where
  | ready | missing | fault
  deriving DecidableEq, Repr, Inhabited

/-- Position part of an ACTUATOR record (R6); position and referenced mark are read from the counter. -/
structure PosPart where
  counter : Nat
  low : Nat
  high : Nat
  deriving DecidableEq, Repr, Inhabited

/-- Fields of an ACTUATOR record after the header (R6). -/
structure ActRec where
  cls : ActClass
  fn : Option Nat
  holder : Option Master
  run : RunState
  lastEnd : Option EndReason
  runLimit : Option Nat
  interlocks : List Interlock
  pos : Option PosPart
  state : ActState
  deriving DecidableEq, Repr, Inhabited

/-- Fields of a UNIT record after the header (R7). -/
structure UnitRec where
  number : Nat
  coupling : CouplingState
  quality : Quality
  causes : Causes
  unitsBehind : Nat
  linked : Bool
  deriving DecidableEq, Repr, Inhabited

/-- Subject of a record: its kind and its channel, input or output (R2). -/
inductive Subject where
  | lamp (ch : Fin 24)
  | sensor (i : Fin 10)
  | actuator (o : Fin 6)
  | unit
  deriving DecidableEq, Repr, Inhabited

/-- Kind, subject and fields of a record (R3). -/
inductive Content where
  | lamp (ch : Fin 24) (r : LampRec)
  | sensor (i : Fin 10) (r : SensorRec)
  | actuator (o : Fin 6) (r : ActRec)
  | unit (r : UnitRec)
  deriving DecidableEq, Repr, Inhabited

/-- A live record; its tag is its place in the store (R3). -/
structure Record where
  gen : Byte
  content : Content
  deriving DecidableEq, Repr, Inhabited

/-- The six requesters (1.5). -/
inductive Requester where
  | sq (n : Fin 4)
  | chain
  | coupling
  deriving DecidableEq, Repr, Inhabited

/-- A request in the pending allocation queue (R11, R12). -/
structure AllocReq where
  requester : Requester
  subject : Subject
  cells : Nat
  replaces : Option (Fin 40)
  deriving DecidableEq, Repr, Inhabited

/-- The record store: 40 tag places and the pending allocation queue (R1, R12). -/
structure Store where
  records : Vector (Option Record) 40
  queue : List AllocReq
  deriving DecidableEq, Repr

/-! ## Notice queues (chapter 2) -/

/-- An entry of a notice queue (R24). -/
inductive NoticeEntry where
  | tag (t : Fin 40)
  | unitStatus
  deriving DecidableEq, Repr, Inhabited

/-- One master's notice queue with its filter and marks (R24). -/
structure NoticeQueue where
  entries : List NoticeEntry
  filter : Filter
  overflowed : Bool
  pendingSent : Bool
  deriving DecidableEq, Repr, Inhabited

/-! ## Plan block (chapter 3) -/

/-- Status of a function (R56). -/
inductive FnStatus where
  | unbound | ok | isPartial | missing
  deriving DecidableEq, Repr, Inhabited

/-- The stored plan as it lies in nonvolatile memory: ident, entries and their 16-bit check (R38). -/
structure StoredPlan where
  plan : Plan
  check : Word16
  deriving DecidableEq, Repr

/-- The plan block (R38). `stored` is `none` when the memory has never been written and while a commit writes it (log
entry 21); `commit` is the commit image while a commit is in flight (R52). -/
structure PlanBlock where
  active : Plan
  staging : Option Plan
  stored : Option StoredPlan
  commit : Option Plan
  status : Vector FnStatus 28
  deriving DecidableEq, Repr

/-! ## Coupling controller (chapter 4) -/

/-- The state PARTING was entered from (R59). -/
inductive PartingOrigin where
  | none | serving | probing
  deriving DecidableEq, Repr, Inhabited

/-- Contents the coupling controller holds for a switch input's pending record: level, change count, and the function
of the plan entry at the request; the class is SWITCH (R148, step 2). -/
structure HeldSwitch where
  input : Fin 10
  closed : Bool
  count : Byte
  fn : Option Nat
  deriving DecidableEq, Repr, Inhabited

/-- The coupling controller (R59), with the two event flags of R34 and the contents it holds (R12). -/
structure Coupling where
  state : CouplingState
  origin : PartingOrigin
  debounce : Timer
  debounceDone : Bool
  deadline : Timer
  bringUp : Bool
  reprobe : Bool
  storeTrouble : Bool
  partingHold : Timer
  idleExpired : Bool
  cycleRestore : Bool
  motion : Motion
  causes : Causes
  inventoryIdent : Nat
  supplyEvent : Bool
  clearEvent : Bool
  heldSwitch : Option HeldSwitch
  deriving DecidableEq, Repr

/-! ## Claim arbiter (chapter 6) -/

/-- Mode and level of a claim in the table (R106). -/
structure ClaimVal where
  mode : ClaimMode
  level : LevelArg
  deriving DecidableEq, Repr, Inhabited

/-- Claim classes (R107). -/
inductive ClaimClass where
  | work | fallback | road | safety | test | line
  deriving DecidableEq, Repr, Inhabited

/-- A lamp command (R114, R129). -/
inductive Cmd where
  | off
  | steady (level : Nat)
  | flash (level : Nat)
  deriving DecidableEq, Repr, Inhabited

/-- Resolved command of a channel with its class, claimant and function (R114); a LINE winner has no claimant. -/
structure Resolved where
  cmd : Cmd
  cls : Option ClaimClass
  claimant : Option Claimant
  fn : Option Nat
  deriving DecidableEq, Repr, Inhabited

/-- The claim arbiter (R106). Row c of `claims` is claimant c's claims on functions 0 to 15. -/
structure Arbiter where
  claims : Vector (Vector (Option ClaimVal) 16) 4
  resolved : Vector Resolved 24
  shed : Vector Bool 24
  frontSilent : Bool
  deriving DecidableEq, Repr

/-! ## Lamp block (chapter 7) -/

/-- Fault states of a channel (R129). -/
inductive FaultState where
  | normal | opened | short | locked
  deriving DecidableEq, Repr, Inhabited

/-- One lamp channel (R129). `command` is the filtered command last handed by the arbiter (R119). -/
structure LampChannel where
  command : Cmd
  driven : Bool
  sampleTimer : Timer
  fault : FaultState
  lowCount : Nat
  normalCount : Nat
  clearWindow : Timer
  deriving DecidableEq, Repr, Inhabited

/-- The flash timebase (R132). -/
inductive Timebase where
  | stopped | on | off
  deriving DecidableEq, Repr, Inhabited

/-- The lamp block (R129). -/
structure LampBlock where
  channels : Vector LampChannel 24
  timebase : Timebase
  phaseTimer : Timer
  supplyLow : Bool
  thermalWarn : Bool
  deriving DecidableEq, Repr

/-! ## Probe sequencers and the measurement source (chapter 5) -/

/-- What a sensor measurement found (R96). -/
inductive SensorResult where
  | unused
  | switch (closed : Bool)
  | valid (raw : Nat)
  | short (raw : Nat)
  | opened
  deriving DecidableEq, Repr, Inhabited

/-- A step result (R98). -/
inductive StepResult where
  | lamp (ch : Fin 24) (cls : LoadClass) (band : Nat)
  | sensor (i : Fin 10) (r : SensorResult)
  | actuator (o : Fin 6) (r : CheckResult)
  deriving DecidableEq, Repr, Inhabited

/-- First index, count and direction of a PROBE_RUN program (R85). -/
structure Loaded where
  first : Nat
  count : Nat
  direction : Direction
  deriving DecidableEq, Repr, Inhabited

/-- A probe program (R85); its list holds subject numbers of the target kind. -/
structure Program where
  target : ProbeTarget
  list : List Nat
  kind : StepKind
  mode : ProbeMode
  demand : DemandCond
  period : Nat
  loaded : Option Loaded
  deriving DecidableEq, Repr, Inhabited

/-- Who loaded a program (R84). -/
inductive Origin where
  | none | bringUp | cycle | service
  deriving DecidableEq, Repr, Inhabited

/-- Sequencer status (R86). -/
inductive SeqStatus where
  | idle | waitSource | stepping | waitLit | waitStore | pausedDemand | waitCycle | done
  deriving DecidableEq, Repr, Inhabited

/-- One probe sequencer (R84); an empty program is `none`. -/
structure Sequencer where
  program : Option Program
  origin : Origin
  status : SeqStatus
  index : Option Nat
  remaining : Nat
  tc : Bool
  mask : Bool
  inserted : Bool
  held : Option StepResult
  cycleTimer : Timer
  deriving DecidableEq, Repr, Inhabited

/-- The sequencers and the source's arbiter (R84, R90); the waiters are the sequencers in WAIT_SOURCE. -/
structure Probe where
  seqs : Vector Sequencer 4
  holder : Option (Fin 4)
  mode : ArbMode
  last : Fin 4
  deriving DecidableEq, Repr

/-! ## Inputs and counters (chapter 8) -/

/-- One sensor input (R146) with its pin level; `snapshot` is `none` for an input without the wake flag. -/
structure Input where
  level : Contact
  debounce : Timer
  settled : Bool
  snapshot : Option Contact
  pinClosed : Bool
  deriving DecidableEq, Repr, Inhabited

/-- One position counter (R146) with the phase pair of the last sample (R156). -/
structure Counter where
  count : Nat
  referenced : Bool
  phaseA : Bool
  phaseB : Bool
  deriving DecidableEq, Repr, Inhabited

/-- The input block; `sense` holds the level last derived of functions 22 to 27 (R43). -/
structure InputBlock where
  inputs : Vector Input 10
  counters : Vector Counter 2
  sense : Vector Contact 6
  deriving DecidableEq, Repr

/-! ## Actuators (chapter 9) -/

/-- Run kinds (R160). -/
inductive RunKind where
  | none | direction | target | energise
  deriving DecidableEq, Repr, Inhabited

/-- One body actuator output (R160). -/
structure Actuator where
  holder : Option Master
  run : RunState
  kind : RunKind
  target : Option Nat
  runTimer : Timer
  runLimit : Option Nat
  stallTimer : Timer
  lastEnd : Option EndReason
  deriving DecidableEq, Repr, Inhabited

/-- The actuator block (R160). `batteryDrive` says that BAT_SUP is at or above the actuator drive threshold; the drive
supply is the view `driveSupply` (R161). -/
structure ActBlock where
  outs : Vector Actuator 6
  batteryDrive : Bool
  deriving DecidableEq, Repr

/-! ## Frames and ports (chapter 11) -/

/-- Kinds of frame (11.9). -/
inductive FrameKind where
  | request | reply | notice | chain
  deriving DecidableEq, Repr, Inhabited

/-- A record as a reply carries it (R20): with the counter's position and mark for a position part (R6). -/
structure RecordImage where
  tag : Fin 40
  record : Record
  position : Option (Nat × Bool)
  deriving DecidableEq, Repr, Inhabited

/-- The unit status image (2.5, R33). -/
structure StatusImage where
  coupling : CouplingState
  motion : Motion
  ownNumber : Nat
  quality : Quality
  causes : Causes
  supplyEvent : Bool
  clearEvent : Bool
  supplyLow : Bool
  thermalWarn : Bool
  frontSilent : Bool
  holdEffective : Bool
  stopForce : Bool
  upOverrun : Bool
  freeCells : Nat
  freeTags : Nat
  pendingCount : Nat
  activeIdent : Nat
  inventoryIdent : Nat
  storedValid : Bool
  commitInFlight : Bool
  rear : RearState
  budget : Nat
  shedCount : Nat
  arbMode : ArbMode
  status : Vector FnStatus 28
  deriving DecidableEq, Repr

/-- One image of a NOTICE_FETCH reply (R30). -/
inductive Image where
  | record (r : RecordImage)
  | status (i : StatusImage)
  deriving DecidableEq, Repr

/-- One plan entry as PLAN_READ answers it (R51). -/
abbrev PlanEntry := EntryArg

/-- A sequencer's state as PROBE_STATUS answers it (R103). -/
structure ProbeImage where
  status : SeqStatus
  origin : Origin
  target : Option ProbeTarget
  kind : Option StepKind
  mode : Option ProbeMode
  demand : Option DemandCond
  period : Option Nat
  index : Option Nat
  remaining : Nat
  tc : Bool
  mask : Bool
  inserted : Bool
  hasHeld : Bool
  isHolder : Bool
  arbMode : ArbMode
  last : Fin 4
  loaded : Option Loaded
  listHead : Option Nat
  listLength : Nat
  deriving DecidableEq, Repr

/-- Bodies of the frames the part makes, by their named fields (log entry 10). -/
inductive Body where
  | empty
  | ping (own : Nat) (coupling : CouplingState) (quality : Quality) (rear : RearState)
  | unitStatus (i : StatusImage)
  | funcStatus (st : FnStatus) (subjects : List (Nat × Option (Fin 40)))
  | fetch (overflowed : Bool) (left : Nat) (images : List Image)
  | tags (ts : List (Fin 40))
  | record (r : RecordImage)
  | recList (ts : List (Fin 40)) (next : Option (Fin 40))
  | holder (m : Master)
  | entryIndex (n : Nat)
  | cleared (count : Nat) (locked : Nat)
  | newTag (t : Fin 40)
  | planEntry (ident : Nat) (e : PlanEntry)
  | probeStatus (i : ProbeImage)
  | number (n : Nat)
  | noticePending (count : Nat) (overflowed : Bool)
  | report (r : Report)
  deriving DecidableEq, Repr

/-- A frame the part makes (R188, R190). `closes` marks the reply whose sending clears the outstanding mark. -/
structure OutFrame where
  kind : FrameKind
  station : Master
  dest : Nat
  src : Nat
  corr : Byte
  code : Byte
  body : Body
  closes : Bool
  deriving DecidableEq, Repr

/-- A frame passed on unchanged (R181, R182): its bytes, or the command that stands for it (log entry 7). -/
inductive FwdFrame where
  | bytes (bs : List Byte)
  | command (c : Instr)
  deriving DecidableEq, Repr

/-- What a line is sending (R183, R190): a frame of this unit, or the head of the forward queue;
`orphan` is a forwarded frame whose queue was emptied while it was on the wire (log entry 29). -/
inductive Sending where
  | own (f : OutFrame)
  | forward (f : FwdFrame)
  | orphan (f : FwdFrame)
  deriving DecidableEq, Repr

/-- Attachment of a master's port (R186, R188). -/
structure Station where
  attached : Bool
  silence : Timer
  outstanding : Bool
  deriving DecidableEq, Repr, Inhabited

/-- One serial line (R185, R190). `collided` says that the frame in the receive buffer began while the part was sending
on the line. -/
structure Line where
  rx : List Byte
  collided : Bool
  waiting : List OutFrame
  sending : Option Sending
  deriving DecidableEq, Repr

/-- The station ports: three stations and four lines. -/
structure Ports where
  stations : Vector Station 3
  lines : Vector Line 4
  deriving DecidableEq, Repr

/-! ## Train chain (chapter 10) -/

/-- Bar cause (R174). -/
inductive BarCause where
  | none | number | overcurrent
  deriving DecidableEq, Repr, Inhabited

/-- The chain block (R174). REAR_FEED is the view `rearFeed`; `assigned` is the number of the last UNIT_ASSIGN sent on
REAR (R7, log entry 48). -/
structure Chain where
  rear : RearState
  bar : BarCause
  feedTry : Bool
  helloTimer : Timer
  silence : Timer
  own : Nat
  assignOut : Bool
  assigned : Nat
  report : Option Report
  helloRepeat : Timer
  summaryRepeat : Timer
  down : List FwdFrame
  up : List FwdFrame
  upOverrun : Bool
  deriving DecidableEq, Repr

/-! ## The machine -/

/-- Work area of the event being taken: the tags handed for appending (R25, log entry 11), whether the pending count went
from 0 to another value or back to 0 (R1), and whether a field of the unit status that hands UNIT_STATUS, or one that a
SUMMARY tells of, changed at a step of the event (R26, R180). -/
structure Work where
  handed : List (Fin 40)
  turned : Bool
  statusTurned : Bool
  summaryTurned : Bool
  deriving DecidableEq, Repr, Inhabited

/-- Everything the HC40 holds. `pending` is the queue of commands waiting, first in first out. -/
structure State where
  powered : Bool
  lines : Lines
  cc : Coupling
  store : Store
  notice : Vector NoticeQueue 3
  plan : PlanBlock
  arb : Arbiter
  lamp : LampBlock
  probe : Probe
  input : InputBlock
  act : ActBlock
  chain : Chain
  port : Ports
  freshCount : Nat
  work : Work
  pending : List Instr
  deriving DecidableEq, Repr

/-- The spec names no fault that stops the part: a command that meets no condition of its rule changes
nothing (log entry 1), and a request is refused by its reply. No command raises a fault. -/
inductive Fault where
  deriving DecidableEq, Repr

/-- Reasons a command can be refused by the model. -/
inductive Refusal where
  /-- Raised by `exec` for a command that has no meaning yet; safe, since nothing is then claimed of it. -/
  | notModelled (mnemonic : String)
  deriving DecidableEq, Repr

/-! ## Reset values -/

/-- A sequencer after a reset (R84). -/
def Sequencer.idle : Sequencer := ⟨none, .none, .idle, none, 0, false, false, false, none, .stopped⟩

/-- A lamp channel after a reset (R145). -/
def LampChannel.reset : LampChannel := ⟨.off, false, .stopped, .normal, 0, 0, .stopped⟩

/-- A channel with no candidate (R114). -/
def Resolved.off : Resolved := ⟨.off, none, none, none⟩

/-- An output after a reset (R173). -/
def Actuator.reset : Actuator := ⟨none, .idle, .none, none, .stopped, none, .stopped, none⟩

/-- A master's notice queue after a reset (R36). -/
def NoticeQueue.reset : NoticeQueue := ⟨[.unitStatus], ⟨true, true, true, true, true⟩, false, false⟩

/-- A line after a reset (log entry 36). -/
def Line.reset : Line := ⟨[], false, [], none⟩

/-- The chain block after a reset, with REAR_SENSE as given (R174). -/
def Chain.reset (rearSense : Bool) : Chain :=
  ⟨if rearSense then .sensed else .vacant, .none, true, .stopped, .stopped, 0, false, 0, none,
    .stopped, .stopped, [], [], false⟩

/-- Status of the functions under the built-in plan with an empty store (R56, R58): every bound function
MISSING, every other UNBOUND. -/
def resetStatus : Vector FnStatus 28 := #v[
  .missing, .missing, .missing, .missing, .missing,
  .missing, .missing, .missing, .missing, .missing, .missing,
  .missing, .unbound, .missing, .unbound, .unbound,
  .missing, .missing, .missing, .unbound, .unbound, .unbound,
  .missing, .missing, .missing, .unbound, .missing, .missing]

/-- A SWITCH input after a supply reset, its debounce timer running (R147, R159). -/
def Input.resetSwitch (snapshot : Option Contact) : Input := ⟨.unknown, .running, false, snapshot, false⟩

/-- An input not of class SWITCH after a supply reset (R159). -/
def Input.resetOther : Input := ⟨.unknown, .stopped, false, none, false⟩

/-- A counter after a supply reset (R159). -/
def Counter.reset : Counter := ⟨0, false, false, false⟩

/-- The external inputs of `State.reset` (DESIGN CHOICE, log entry 4). -/
def Lines.reset : Lines := ⟨false, false, false, false, false, false, false, false⟩

/-- The machine right after a supply reset with the lines of log entry 4: QUIET on battery, the built-in
plan active (R46), MISSING_FUNCTION set (R57), SUPPLY_EVENT set (R83), one UNIT_STATUS in each queue (R36). -/
def State.reset : State where
  powered := true
  lines := Lines.reset
  cc :=
    { state := .quiet, origin := .none, debounce := .stopped, debounceDone := false,
      deadline := .stopped, bringUp := false, reprobe := false, storeTrouble := false,
      partingHold := .stopped, idleExpired := true, cycleRestore := false, motion := .parked,
      causes := ⟨false, false, true, false, false, false⟩, inventoryIdent := 0,
      supplyEvent := true, clearEvent := false, heldSwitch := none }
  store := ⟨Vector.replicate 40 none, []⟩
  notice := Vector.replicate 3 NoticeQueue.reset
  plan := ⟨Config.builtInPlan, none, none, none, resetStatus⟩
  arb :=
    { claims := Vector.replicate 4 (Vector.replicate 16 none), resolved := Vector.replicate 24 Resolved.off,
      shed := Vector.replicate 24 false, frontSilent := false }
  lamp :=
    { channels := Vector.replicate 24 LampChannel.reset, timebase := .stopped, phaseTimer := .stopped,
      supplyLow := true, thermalWarn := false }
  probe := ⟨Vector.replicate 4 Sequencer.idle, none, .fixed, 3⟩
  input :=
    { inputs := #v[Input.resetOther, Input.resetOther, Input.resetSwitch (some .unknown), Input.resetOther,
        Input.resetSwitch none, Input.resetSwitch none, Input.resetOther, Input.resetOther,
        Input.resetOther, Input.resetOther],
      counters := Vector.replicate 2 Counter.reset, sense := Vector.replicate 6 .unknown }
  act := ⟨Vector.replicate 6 Actuator.reset, true⟩
  chain := Chain.reset false
  port := ⟨Vector.replicate 3 ⟨false, .stopped, false⟩, Vector.replicate 4 Line.reset⟩
  freshCount := 0
  work := ⟨[], false, false, false⟩
  pending := []

end Sys2Proof.Machine
end

