-- ==== Sys2Proof/Machine/Flags.lean ====
section
/-! DEFINITION. The views the rules derive from the state: conditions, budgets, the function map, function
status, causes, quality, the unit status image. Nothing here changes the state. -/

namespace Sys2Proof.Machine

/-! ## Indices -/

/-- Place of a master in the per-master tables. -/
def masterIx : Master → Fin 3
  | .front => 0
  | .chassis => 1
  | .service => 2

/-- Place of a port in the table of lines. -/
def portIx : Port → Fin 4
  | .front => 0
  | .chassis => 1
  | .service => 2
  | .rear => 3

/-- The port a master speaks through. -/
def masterPort : Master → Port
  | .front => .front
  | .chassis => .chassis
  | .service => .service

/-- Row of a claimant in the claim table. -/
def claimantIx : Claimant → Fin 4
  | .front => 0
  | .chassis => 1
  | .service => 2
  | .unit => 3

/-- A master as a claimant. -/
def asClaimant : Master → Claimant
  | .front => .front
  | .chassis => .chassis
  | .service => .service

/-! ## The stored plan (R38) -/

/-- The plan of a stored copy whose check matches its contents. -/
def StoredPlan.valid (x : StoredPlan) : Option Plan := if x.check = Config.planCheck x.plan then some x.plan else none

/-- A stored copy with a matching check (R53). -/
def StoredPlan.of (p : Plan) : StoredPlan := ⟨p, Config.planCheck p⟩

/-- The stored plan while its valid mark is yes (R38). -/
def validPlan (s : State) : Option Plan := s.plan.stored.bind StoredPlan.valid

/-! ## Conditions -/

/-- The parked condition (4.6). -/
def parked (s : State) : Bool := s.cc.motion = .parked

/-- The coupled states PROBING, SERVING and PARTING (R116, R165). -/
def coupledState : CouplingState → Bool
  | .probing => true
  | .serving => true
  | .parting => true
  | _ => false

/-- The coupling state is one of PROBING, SERVING and PARTING. -/
def coupled (s : State) : Bool := coupledState s.cc.state

/-- The hold is effective (R123). -/
def holdEffective (s : State) : Bool :=
  s.lines.svcHold &&
    (s.cc.state = .localAwake || ((s.cc.state = .probing || s.cc.state = .serving) && parked s))

/-- The STOP_FORCE effect holds (R126). -/
def stopForceEffect (s : State) : Bool := s.lines.stopForce && s.lines.cplPresent

/-- The budget in force, in units (R116). -/
def budget (s : State) : Nat :=
  if coupled s then
    match s.lamp.supplyLow, s.lamp.thermalWarn with
    | false, false => 560
    | true, true => 140
    | _, _ => 280
  else if s.lamp.thermalWarn then 80 else 160

/-- REAR_FEED is on while the REAR state is FEEDING, LINKED or LOST (R174). -/
def rearFeed (s : State) : Bool :=
  match s.chain.rear with
  | .feeding => true
  | .linked => true
  | .lost => true
  | _ => false

/-- The units-behind count (R180). -/
def unitsBehind (s : State) : Nat :=
  if s.chain.rear = .linked then 1 + (s.chain.report.elim 0 (·.unitsBehind)) else 0

/-- The drive supply is present: the coupling supply is, or BAT_SUP is at or above the drive threshold (R161). -/
def driveSupply (s : State) : Bool := s.lines.cplPresent || s.act.batteryDrive

/-- A run is in progress (R160). -/
def running (s : State) (o : Fin 6) : Bool := s.act.outs[o].run ≠ .idle

/-! ## Function codes (R37) -/

/-- Class of a function (R37). -/
inductive FnClass where
  | signal | marking | work | body | sense
  deriving DecidableEq, Repr

/-- The class of a function code, or none above 27 (R37). -/
def fnClass (f : Nat) : Option FnClass :=
  if f ≤ 4 then some .signal
  else if f ≤ 10 then some .marking
  else if f ≤ 15 then some .work
  else if f ≤ 21 then some .body
  else if f ≤ 27 then some .sense
  else none

/-- A lamp function is of class SIGNAL, MARKING or WORK, codes 0 to 15 (R37). -/
def isLampFn (f : Nat) : Bool := f ≤ 15
/-- WORK functions, codes 11 to 15. -/
def isWorkFn (f : Nat) : Bool := 11 ≤ f && f ≤ 15
/-- MARKING functions, codes 5 to 10. -/
def isMarkingFn (f : Nat) : Bool := 5 ≤ f && f ≤ 10
/-- BODY functions, codes 16 to 21. -/
def isBodyFn (f : Nat) : Bool := 16 ≤ f && f ≤ 21
/-- SENSE functions, codes 22 to 27. -/
def isSenseFn (f : Nat) : Bool := 22 ≤ f && f ≤ 27

/-- TURN_LEFT. -/
abbrev fnTurnLeft : Nat := 0
/-- TURN_RIGHT. -/
abbrev fnTurnRight : Nat := 1
/-- STOP. -/
abbrev fnStop : Nat := 2
/-- TAIL_LEFT. -/
abbrev fnTailLeft : Nat := 5
/-- TAIL_RIGHT. -/
abbrev fnTailRight : Nat := 6

/-- The required set (R37). -/
def requiredFns : List Nat := [fnTurnLeft, fnTurnRight, fnStop, fnTailLeft, fnTailRight]

/-! ## The function map (R42) -/

/-- The entry of a channel in a plan binds at least one function (R42). -/
def channelBound (p : Plan) (ch : Fin 24) : Bool := !p.lamps[ch].bindings.isEmpty

/-- Function codes of a channel in list order (R42). -/
def channelFns (p : Plan) (ch : Fin 24) : List Nat := p.lamps[ch].bindings.map (·.fn)

/-- Channels whose entry binds a function, ascending (R42). -/
def channelsOf (p : Plan) (f : Nat) : List (Fin 24) :=
  (List.finRange 24).filter fun ch => (channelFns p ch).contains f

/-- Inputs whose entry names a function, ascending (R42). -/
def inputsOf (p : Plan) (f : Nat) : List (Fin 10) :=
  (List.finRange 10).filter fun i => p.sensors[i].fn = some f

/-- Outputs whose entry names a function, ascending; the commit check allows one (R42, R44). -/
def outputsOf (p : Plan) (f : Nat) : List (Fin 6) :=
  (List.finRange 6).filter fun o => p.acts[o].fn = some f

/-- The binding level of STOP on a channel, if its entry binds STOP (R126). -/
def stopLevel (p : Plan) (ch : Fin 24) : Option Nat :=
  (p.lamps[ch].bindings.find? (·.fn = fnStop)).map (·.level)

/-! ## Looking into the store -/

/-- Subject of a record's content (R2). -/
def Content.subject : Content → Subject
  | .lamp ch _ => .lamp ch
  | .sensor i _ => .sensor i
  | .actuator o _ => .actuator o
  | .unit _ => .unit

/-- Kind of a record's content (R3). -/
def Content.kind : Content → RecKind
  | .lamp _ _ => .lamp
  | .sensor _ _ => .sensor
  | .actuator _ _ => .actuator
  | .unit _ => .unit

/-- Cells a record occupies (1.2). -/
def Content.cells : Content → Nat
  | .lamp _ _ => 1
  | .sensor _ r => if r.calib.isSome then 2 else 1
  | .actuator _ r => if r.pos.isSome then 3 else 2
  | .unit _ => 1

/-- Cells of a tag place: 0 when it is free. -/
def placeCells : Option Record → Nat
  | none => 0
  | some r => r.content.cells

/-- Cells of all live records. -/
def usedCells (st : Store) : Nat := ((List.finRange 40).map fun t => placeCells st.records[t]).sum

/-- Number of live records. -/
def liveCount (st : Store) : Nat := ((List.finRange 40).filter fun t => st.records[t].isSome).length

/-- Free cells (R1). -/
def freeCells (s : State) : Nat := Config.cells - usedCells s.store

/-- Free tags (R1). -/
def freeTags (s : State) : Nat := 40 - liveCount s.store

/-- The record a tag number names, none when free or above 39 (R20). -/
def recordAt (s : State) (tag : Nat) : Option Record :=
  if h : tag < 40 then s.store.records[tag] else none

/-- Tag of the live record of a subject (R2). -/
def liveTag (s : State) (j : Subject) : Option (Fin 40) :=
  (List.finRange 40).find? fun t =>
    match s.store.records[t] with
    | some r => r.content.subject = j
    | none => false

/-- Live record of a subject with its tag. -/
def liveRecord (s : State) (j : Subject) : Option (Fin 40 × Record) :=
  match liveTag s j with
  | some t => s.store.records[t].map fun r => (t, r)
  | none => none

/-- Live LAMP record of a channel. -/
def lampRecord (s : State) (ch : Fin 24) : Option LampRec :=
  match liveRecord s (.lamp ch) with
  | some (_, ⟨_, .lamp _ r⟩) => some r
  | _ => none

/-- Live SENSOR record of an input. -/
def sensorRecord (s : State) (i : Fin 10) : Option SensorRec :=
  match liveRecord s (.sensor i) with
  | some (_, ⟨_, .sensor _ r⟩) => some r
  | _ => none

/-- Live ACTUATOR record of an output. -/
def actRecord (s : State) (o : Fin 6) : Option ActRec :=
  match liveRecord s (.actuator o) with
  | some (_, ⟨_, .actuator _ r⟩) => some r
  | _ => none

/-- Live UNIT record. -/
def unitRecord (s : State) : Option UnitRec :=
  match liveRecord s .unit with
  | some (_, ⟨_, .unit r⟩) => some r
  | _ => none

/-- The lowest free tag (R2). -/
def lowestFree (st : Store) : Option (Fin 40) :=
  (List.finRange 40).find? fun t => st.records[t].isNone

/-- Tags of all live records, ascending (R31). -/
def liveTags (s : State) : List (Fin 40) := (List.finRange 40).filter fun t => s.store.records[t].isSome

/-- A requester has a request in the queue (R12). -/
def isPending (s : State) (q : Requester) : Bool := s.store.queue.any (·.requester = q)

/-- The open mask in force of a channel (R129). -/
def openMaskInForce (s : State) (ch : Fin 24) : Bool := (lampRecord s ch).elim false (·.openMask)

/-! ## SENSE levels (R43) -/

/-- Debounced levels of a function's bound inputs whose records are VALID. -/
def validLevels (s : State) (f : Nat) : List Contact :=
  ((inputsOf s.plan.active f).filter fun i => (sensorRecord s i).any (·.state = .valid)).map fun i =>
    s.input.inputs[i].level

/-- The level of a SENSE function (R43). -/
def senseLevel (s : State) (f : Nat) : Contact :=
  let ls := validLevels s f
  if ls.isEmpty then .unknown
  else if ls.all (· = .closed) then .closed
  else if ls.all (· = .opened) then .opened
  else .unknown

/-! ## Function status (R56, R57) -/

/-- An expected class is met by a load class (R39). -/
def expectedMet : Option ExpectedClass → LoadClass → Bool
  | none, _ => true
  | some .led, c => c = .led
  | some .filament, c => c = .filament

/-- A bound channel counts as working (R56). -/
def working (s : State) (ch : Fin 24) : Bool :=
  (lampRecord s ch).any fun r =>
    decide (r.state = .present) && expectedMet s.plan.active.lamps[ch].expected r.loadClass

/-- OK when all hold, PARTIAL when some do, MISSING when none does, UNBOUND for no subject (R56). -/
def statusOfMarks (bs : List Bool) : FnStatus :=
  if bs.isEmpty then .unbound
  else if bs.all id then .ok
  else if bs.any id then .isPartial
  else .missing

/-- Status of a function computed from the active plan and the live records (R56). -/
def fnStatusNow (s : State) (f : Nat) : FnStatus :=
  match fnClass f with
  | some .body =>
    match outputsOf s.plan.active f with
    | [] => .unbound
    | o :: _ => if (actRecord s o).any (·.state = .ready) then .ok else .missing
  | some .sense =>
    statusOfMarks ((inputsOf s.plan.active f).map fun i => (sensorRecord s i).any (·.state = .valid))
  | some _ => statusOfMarks ((channelsOf s.plan.active f).map (working s))
  | none => .unbound

/-- The function status table computed now (R55). -/
def statusTable (s : State) : Vector FnStatus 28 := Vector.ofFn fun f : Fin 28 => fnStatusNow s f.val

/-- A required function is PARTIAL or MISSING (R57). -/
def requiredMissing (s : State) : Bool :=
  requiredFns.any fun f => fnStatusNow s f = .isPartial || fnStatusNow s f = .missing

/-- A LAMP record is in OPEN, SHORT or LOCKED (R140). -/
def LampState.faulted : LampState → Bool
  | .opened => true
  | .short => true
  | .locked => true
  | _ => false

/-- Some live LAMP record is in OPEN, SHORT or LOCKED (R140). -/
def anyLampFault (s : State) : Bool :=
  (List.finRange 40).any fun t =>
    match s.store.records[t] with
    | some ⟨_, .lamp _ r⟩ => r.state.faulted
    | _ => false

/-- The cause set holds no cause (R79). -/
def causesEmpty (c : Causes) : Bool :=
  !c.timeout && !c.store && !c.missingFunction && !c.lampFault && !c.planFallback && !c.chainLost

/-- Unit quality of a cause set (R79). -/
def causesQuality (c : Causes) : Quality := if causesEmpty c then .complete else .degraded

/-- Unit quality (R79). -/
def quality (s : State) : Quality := causesQuality s.cc.causes

/-- Shed channel count (R118). -/
def shedCount (s : State) : Nat := ((List.finRange 24).filter fun ch => s.arb.shed[ch]).length

/-! ## Unit status (2.5) -/

/-- The unit status image at this moment (R33). -/
def statusImage (s : State) : StatusImage where
  coupling := s.cc.state
  motion := s.cc.motion
  ownNumber := s.chain.own
  quality := quality s
  causes := s.cc.causes
  supplyEvent := s.cc.supplyEvent
  clearEvent := s.cc.clearEvent
  supplyLow := s.lamp.supplyLow
  thermalWarn := s.lamp.thermalWarn
  frontSilent := s.arb.frontSilent
  holdEffective := holdEffective s
  stopForce := stopForceEffect s
  upOverrun := s.chain.upOverrun
  freeCells := freeCells s
  freeTags := freeTags s
  pendingCount := s.store.queue.length
  activeIdent := s.plan.active.ident
  inventoryIdent := s.cc.inventoryIdent
  storedValid := (validPlan s).isSome
  commitInFlight := s.plan.commit.isSome
  rear := s.chain.rear
  budget := budget s
  shedCount := shedCount s
  arbMode := s.probe.mode
  status := s.plan.status

/-- The part of the unit status whose change hands UNIT_STATUS (2.5): free cells and free tags left out, the
pending count only as zero or not (R1, R26). -/
def statusView (s : State) : StatusImage :=
  { statusImage s with
    freeCells := 0, freeTags := 0, pendingCount := if s.store.queue.isEmpty then 0 else 1 }

/-- The report this unit sends in HELLO and SUMMARY (R177, R180). -/
def ownReport (s : State) : Report := ⟨s.cc.state, quality s, s.cc.causes, unitsBehind s⟩

/-! ## Idle conditions (R63) -/

/-- The claim table holds no claim (R106). -/
def noClaims (s : State) : Bool :=
  (List.finRange 4).all fun c => (List.finRange 16).all fun f => s.arb.claims[c][f].isNone

/-- No actuator has a holder (R63). -/
def noHolder (s : State) : Bool := (List.finRange 6).all fun o => s.act.outs[o].holder.isNone

/-- The LOCAL conditions hold: at least one reason to stay awake (R63). -/
def localConditions (s : State) : Bool :=
  !s.cc.idleExpired || !noClaims s || !noHolder s || s.lines.svcHold

end Sys2Proof.Machine
end

