-- ==== Sys2Proof/Machine/Frames.lean ====
section
/-! DEFINITION. The Hollet station frame (11.9): its check, its parsing, its bytes, and the record images. -/

namespace Sys2Proof.Machine

/-! ## The CHECK field -/

/-- One bit of the CRC with generator 0x1021, most significant bit first (11.9, log entry 35). -/
def crcBit (c : Word16) : Word16 := if c.msb then (c <<< 1) ^^^ 0x1021#16 else c <<< 1

/-- `n` bits of the CRC. -/
def crcBits : Nat → Word16 → Word16
  | 0, c => c
  | n + 1, c => crcBits n (crcBit c)

/-- One byte of the CRC. -/
def crcByte (c : Word16) (b : Byte) : Word16 := crcBits 8 (c ^^^ (b.zeroExtend 16 <<< 8))

/-- The CHECK over a list of bytes, initial value 0xFFFF (11.9). -/
def crc (bs : List Byte) : Word16 := bs.foldl crcByte 0xFFFF#16

/-- High byte of a sixteen-bit number. -/
def hiByte (w : Word16) : Byte := (w >>> 8).truncate 8
/-- Low byte of a sixteen-bit number. -/
def loByte (w : Word16) : Byte := w.truncate 8

/-- A number as one byte. -/
def byteOf (n : Nat) : Byte := BitVec.ofNat 8 n
/-- A number as two bytes, high byte first (11.9). -/
def wordBytes (n : Nat) : List Byte := [byteOf (n / 256), byteOf n]

/-- The number two bytes stand for, high byte first. -/
def wordOf (hi lo : Byte) : Nat := hi.toNat * 256 + lo.toNat

/-! ## Reading a frame (R185) -/

/-- The STATION value of a master's line (11.9). -/
def stationCode : Master → Nat
  | .front => 0
  | .chassis => 1
  | .service => 2

/-- The STATION value frames carry on a port's line (R185). -/
def portStation : Port → Nat
  | .front => 0
  | .chassis => 1
  | .service => 2
  | .rear => 0

/-- Kind of the two KIND bits (11.9). -/
def frameKindOf (n : Nat) : FrameKind :=
  if n = 0 then .request else if n = 1 then .reply else if n = 2 then .notice else .chain

/-- Code of a frame kind (11.9). -/
def frameKindCode : FrameKind → Nat
  | .request => 0
  | .reply => 1
  | .notice => 2
  | .chain => 3

/-- A well-formed frame's fields. -/
structure RxFrame where
  dest : Nat
  src : Nat
  kind : FrameKind
  corr : Byte
  code : Byte
  payload : List Byte
  deriving DecidableEq, Repr

/-- Judge the bytes a port collected; `none` for a frame R185 discards as malformed. -/
def parseFrame (p : Port) (bytes : List Byte) : Option RxFrame :=
  match bytes with
  | sync :: len :: ds :: sk :: corr :: code :: rest =>
    let n := len.toNat
    if sync ≠ 0xC3#8 then none
    else if 40 < n then none
    else if rest.length ≠ n + 2 then none
    else if rest.drop n ≠ [hiByte (crc (bytes.take (n + 6))), loByte (crc (bytes.take (n + 6)))] then none
    else if sk.toNat % 16 ≠ 0 then none
    else if sk.toNat / 64 ≠ portStation p then none
    else
      some
        { dest := ds.toNat / 16, src := ds.toNat % 16, kind := frameKindOf (sk.toNat / 16 % 4),
          corr := corr, code := code, payload := rest.take n }
  | _ => none

/-- The bytes of a frame (11.9). -/
def frameBytes (station : Nat) (f : RxFrame) : List Byte :=
  let body :=
    [0xC3#8, byteOf f.payload.length, byteOf (f.dest * 16 + f.src),
      byteOf (station * 64 + frameKindCode f.kind * 16), f.corr, f.code] ++ f.payload
  body ++ [hiByte (crc body), loByte (crc body)]

/-! ## Codes -/

/-- Result codes (11.4). -/
def resultCode : Result → Byte
  | .done => 0
  | .accepted => 1
  | .busy => 2
  | .forbidden => 3
  | .badArg => 4
  | .notFound => 5
  | .refusedState => 6
  | .heldBy => 7
  | .noRoom => 8
  | .unreachable => 9
  | .badPlan => 10

/-- Result of a code (11.4); the codes above 10 name no result. -/
def resultOf (b : Byte) : Option Result :=
  [Result.done, .accepted, .busy, .forbidden, .badArg, .notFound, .refusedState, .heldBy, .noRoom,
    .unreachable, .badPlan][b.toNat]?

/-- Code of UNIT_ASSIGN (11.5). -/
abbrev codeUnitAssign : Byte := 0x11
/-- Code of PHASE (11.5). -/
abbrev codePhase : Byte := 0x13
/-- Code of NOTICE_PENDING (11.5). -/
abbrev codeNoticePending : Byte := 0x30
/-- Code of HELLO (11.5). -/
abbrev codeHello : Byte := 0x31
/-- Code of SUMMARY (11.5). -/
abbrev codeSummary : Byte := 0x32

/-- The stations a request code is permitted from (11.5): `none` for a code that names no request. -/
def codeStations (code : Byte) : Option (List Master) :=
  let c := code.toNat
  if 1 ≤ c ∧ c ≤ 0x10 then some [.front, .chassis, .service]
  else if 0x11 ≤ c ∧ c ≤ 0x13 then some [.front]
  else if c = 0x14 ∨ c = 0x15 then some [.front, .service]
  else if 0x16 ≤ c ∧ c ≤ 0x23 then some [.service]
  else none

/-! ## Record images (11.9) -/

/-- A function code as a byte; 0xFF stands for none. -/
def fnByte : Option Nat → Byte
  | some f => byteOf f
  | none => 0xFF

/-- Kind code of a record. -/
def kindCode : RecKind → Nat
  | .lamp => 0
  | .sensor => 1
  | .actuator => 2
  | .unit => 3

/-- Load class code. -/
def loadClassCode : LoadClass → Nat
  | .noLoad => 0
  | .led => 1
  | .filament => 2
  | .short => 3

/-- State code of a record (11.9). -/
def stateCode : Content → Nat
  | .lamp _ r =>
    match r.state with
    | .present => 0
    | .missing => 1
    | .opened => 2
    | .short => 3
    | .locked => 4
  | .sensor _ r =>
    match r.state with
    | .valid => 0
    | .opened => 1
    | .short => 2
    | .stale => 3
  | .actuator _ r =>
    match r.state with
    | .ready => 0
    | .missing => 1
    | .fault => 2
  | .unit r => if r.linked then 0 else 1

/-- Subject number of a record. -/
def subjectNumber : Subject → Nat
  | .lamp ch => ch.val
  | .sensor i => i.val
  | .actuator o => o.val
  | .unit => 0

/-- A Bool as a bit. -/
def bit (b : Bool) : Nat := if b then 1 else 0

/-- Coupling state code (11.9). -/
def couplingCode : CouplingState → Nat
  | .quiet => 0
  | .localAwake => 1
  | .mating => 2
  | .probing => 3
  | .serving => 4
  | .parting => 5

/-- Causes as bits 0 to 5 (11.9). -/
def causesCode (c : Causes) : Nat :=
  bit c.timeout + 2 * bit c.store + 4 * bit c.missingFunction + 8 * bit c.lampFault +
    16 * bit c.planFallback + 32 * bit c.chainLost

/-- Band code of a SENSOR record. -/
def bandCode : Band → Nat
  | .outside => 0
  | .low => 1
  | .normal => 2
  | .high => 3

/-- Run state code. -/
def runCode : RunState → Nat
  | .idle => 0
  | .runA => 1
  | .runB => 2
  | .energised => 3

/-- End reason code, 0 for none. -/
def endCode : Option EndReason → Nat
  | none => 0
  | some .target => 1
  | some .limit => 2
  | some .timeout => 3
  | some .stopped => 4
  | some .given => 5
  | some .interlock => 6
  | some .silence => 7
  | some .stall => 8
  | some .supply => 9
  | some .parting => 10

/-- Holder code, 0 for none. -/
def holderCode : Option Master → Nat
  | none => 0
  | some m => stationCode m + 1

/-- Type and function bytes of an interlock. -/
def interlockBytes : Interlock → List Byte
  | .parked => [1, 0]
  | .coupled => [2, 0]
  | .uncoupled => [3, 0]
  | .senseOpened f => [4, byteOf f]
  | .senseClosed f => [5, byteOf f]

/-- Pad with zero bytes or cut to a length. -/
def padTo (n : Nat) (bs : List Byte) : List Byte := (bs ++ List.replicate n 0).take n

/-- Bytes 4 onward of cell 0 of a record. -/
def cellZeroBytes : Content → List Byte
  | .lamp _ r =>
    [byteOf (loadClassCode r.loadClass + 4 * bit r.openMask + 8 * bit r.unassigned + 16 * r.bound.length),
      byteOf r.expected, byteOf r.last] ++ r.bound.map byteOf
  | .sensor _ r =>
    [byteOf (bit r.resistive + 2 * bandCode r.band), fnByte r.fn] ++ wordBytes r.raw ++ wordBytes r.value ++
      [r.changeCount]
  | .actuator _ r =>
    [byteOf ((if r.cls = .valve then 1 else 0) + 4 * holderCode r.holder + 16 * runCode r.run), fnByte r.fn,
      byteOf (endCode r.lastEnd), byteOf (r.runLimit.getD 0)]
  | .unit r =>
    [byteOf r.number, byteOf (couplingCode r.coupling),
      byteOf (128 * bit (r.quality = .degraded) + causesCode r.causes), byteOf r.unitsBehind]

/-- The cells after cell 0 of a record. -/
def furtherCells (c : Content) (position : Option (Nat × Bool)) : List Byte :=
  match c with
  | .sensor _ ⟨_, _, _, _, _, _, some k, _⟩ =>
    padTo 12 (wordBytes k.offset ++ wordBytes k.span ++ wordBytes k.low ++ wordBytes k.high)
  | .actuator _ r =>
    padTo 12 (byteOf r.interlocks.length :: (r.interlocks.map interlockBytes).flatten) ++
      (match r.pos, position with
        | some p, some (n, ref) =>
          padTo 12 (byteOf (p.counter + 128 * bit ref) :: (wordBytes n ++ wordBytes p.low ++ wordBytes p.high))
        | _, _ => [])
  | _ => []

/-- The image of a record, 12 bytes a cell (11.9). -/
def recordImageBytes (i : RecordImage) : List Byte :=
  let c := i.record.content
  padTo 12
      ([byteOf i.tag.val, byteOf (64 * kindCode c.kind + 16 * c.cells + stateCode c),
        byteOf (subjectNumber c.subject), i.record.gen] ++ cellZeroBytes c) ++
    furtherCells c i.position

end Sys2Proof.Machine
end

