-- ==== Sys2Proof/Machine/Ops.lean ====
section
/-! DEFINITION. The named operations over the state: setters, frames made for a port, notice queues, and the
writing of a record in place. -/

namespace Sys2Proof.Machine

/-! ## Setters -/

/-- Write one sequencer. -/
def setSeq (n : Fin 4) (q : Sequencer) (s : State) : State :=
  { s with probe := { s.probe with seqs := s.probe.seqs.set n q } }

/-- Write one sensor input. -/
def setInput (i : Fin 10) (x : Input) (s : State) : State :=
  { s with input := { s.input with inputs := s.input.inputs.set i x } }

/-- Write one position counter. -/
def setCounter (c : Fin 2) (x : Counter) (s : State) : State :=
  { s with input := { s.input with counters := s.input.counters.set c x } }

/-- Write one body actuator output. -/
def setOut (o : Fin 6) (x : Actuator) (s : State) : State :=
  { s with act := { s.act with outs := s.act.outs.set o x } }

/-- Write one lamp channel. -/
def setChannel (ch : Fin 24) (x : LampChannel) (s : State) : State :=
  { s with lamp := { s.lamp with channels := s.lamp.channels.set ch x } }

/-- Write one master's notice queue. -/
def setQueue (m : Master) (q : NoticeQueue) (s : State) : State :=
  { s with notice := s.notice.set (masterIx m) q }

/-- Write one master's station. -/
def setStation (m : Master) (x : Station) (s : State) : State :=
  { s with port := { s.port with stations := s.port.stations.set (masterIx m) x } }

/-- Write one line. -/
def setLine (p : Port) (x : Line) (s : State) : State :=
  { s with port := { s.port with lines := s.port.lines.set (portIx p) x } }

/-- Write one tag place of the store. -/
def setPlace (t : Fin 40) (x : Option Record) (s : State) : State :=
  { s with store := { s.store with records := s.store.records.set t x } }

/-- Write a claim place of the table (R106); functions above 15 have none. -/
def setClaim (c : Claimant) (f : Nat) (v : Option ClaimVal) (s : State) : State :=
  if h : f < 16 then
    { s with arb := { s.arb with
      claims := s.arb.claims.set (claimantIx c) (s.arb.claims[claimantIx c].set f v) } }
  else s

/-- Change the coupling controller. -/
def mapCc (f : Coupling → Coupling) (s : State) : State := { s with cc := f s.cc }

/-- Change the cause set (R79). -/
def mapCauses (f : Causes → Causes) (s : State) : State := mapCc (fun c => { c with causes := f c.causes }) s

/-- Change the chain block. -/
def mapChain (f : Chain → Chain) (s : State) : State := { s with chain := f s.chain }

/-! ## Reading -/

/-- A master's station. -/
def station (s : State) (m : Master) : Station := s.port.stations[masterIx m]

/-- A port's line. -/
def line (s : State) (p : Port) : Line := s.port.lines[portIx p]

/-- A master's notice queue. -/
def queueOf (s : State) (m : Master) : NoticeQueue := s.notice[masterIx m]

/-- The claim of a claimant on a function, if the table holds one (R106). -/
def claimAt (s : State) (c : Claimant) (f : Nat) : Option ClaimVal :=
  if h : f < 16 then s.arb.claims[claimantIx c][f] else none

/-- The three masters in order. -/
def masters : List Master := [.front, .chassis, .service]

/-! ## Frames made for a port (R190) -/

/-- A frame made for a port joins the frames waiting on it, in the order made (R190). -/
def pushFrame (p : Port) (f : OutFrame) (s : State) : State :=
  setLine p { line s p with waiting := (line s p).waiting ++ [f] } s

/-- The reply of R188: DEST the request's SRC, SRC the own number, CORR echoed. -/
def replyFrame (h : ReqHdr) (r : Result) (b : Body) (closes : Bool) (s : State) : OutFrame :=
  { kind := .reply, station := h.station, dest := h.src, src := s.chain.own, corr := h.corr,
    code := resultCode r, body := b, closes := closes }

/-- The reply of a request taken at step 5 of R188; a broadcast gets none (R189). -/
def replyWith (h : ReqHdr) (r : Result) (b : Body) (s : State) : State :=
  if h.broadcast then s else pushFrame (masterPort h.station) (replyFrame h r b true s) s

/-- A reply with an empty body. -/
def reply (h : ReqHdr) (r : Result) (s : State) : State := replyWith h r .empty s

/-- A reply given before step 5 of R188, or by the chain block (R181): it clears no mark. -/
def refuseEarly (h : ReqHdr) (r : Result) (s : State) : State :=
  if h.broadcast then s else pushFrame (masterPort h.station) (replyFrame h r .empty false s) s

/-- An unsolicited frame of this unit: DEST 0, SRC the own number, CORR 0 (R190). -/
def ownFrame (k : FrameKind) (st : Master) (code : Byte) (b : Body) (s : State) : OutFrame :=
  { kind := k, station := st, dest := 0, src := s.chain.own, corr := 0, code := code, body := b, closes := false }

/-- Make a HELLO on FRONT (R180). -/
def sendHello (s : State) : State :=
  pushFrame .front (ownFrame .chain .front codeHello (.report (ownReport s)) s) s

/-- Make a SUMMARY on FRONT and restart the SUMMARY repeat (R180). -/
def sendSummary (s : State) : State :=
  mapChain (fun c => { c with summaryRepeat := .running })
    (pushFrame .front (ownFrame .chain .front codeSummary (.report (ownReport s)) s) s)

/-- Make a PHASE on REAR: kind REQUEST with DEST 15 (R133, R190). -/
def sendPhase (s : State) : State :=
  pushFrame .rear { ownFrame .request .front codePhase .empty s with dest := 15 } s

/-- Make a UNIT_ASSIGN on REAR with a new correlation number (R177, log entry 18), set the mark and keep the number
assigned. -/
def sendAssign (s : State) : State :=
  let f : OutFrame :=
    { ownFrame .request .front codeUnitAssign (.number (s.chain.own + 1)) s with
      corr := Config.freshCorr s.freshCount }
  let s := pushFrame .rear f { s with freshCount := s.freshCount + 1 }
  mapChain (fun c => { c with assignOut := true, assigned := c.own + 1 }) s

/-! ## Notice queues (chapter 2) -/

/-- A record kind is in a filter (R24). -/
def Filter.has (f : Filter) : RecKind → Bool
  | .lamp => f.lamp
  | .sensor => f.sensor
  | .actuator => f.actuator
  | .unit => f.unit

/-- An entry passes a filter (R24). -/
def passes (s : State) (f : Filter) : NoticeEntry → Bool
  | .tag t => (s.store.records[t]).any fun r => Filter.has f r.content.kind
  | .unitStatus => f.unitStatus

/-- Number of passing entries of a master's queue (R29). -/
def passingCount (s : State) (m : Master) : Nat :=
  ((queueOf s m).entries.filter (passes s (queueOf s m).filter)).length

/-- A queue is due (R24). -/
def due (s : State) (m : Master) : Bool := 0 < passingCount s m || (queueOf s m).overflowed

/-- The NOTICE_PENDING frame (R29). -/
def noticeFrame (s : State) (m : Master) : OutFrame :=
  ownFrame .notice m codeNoticePending (.noticePending (passingCount s m) (queueOf s m).overflowed) s

/-- The check of R29: a due queue, PENDING_SENT clear and the port attached make a NOTICE_PENDING. -/
def noticeCheck (m : Master) (s : State) : State :=
  if due s m && !(queueOf s m).pendingSent && (station s m).attached then
    setQueue m { queueOf s m with pendingSent := true } (pushFrame (masterPort m) (noticeFrame s m) s)
  else s

/-- Clear PENDING_SENT when the queue is not due (R28, R30). -/
def settleMark (m : Master) (s : State) : State :=
  if due s m then s else setQueue m { queueOf s m with pendingSent := false } s

/-- How one queue deals with an append (R25). -/
def appendEntry (e : NoticeEntry) (q : NoticeQueue) : NoticeQueue :=
  if q.overflowed then q
  else if q.entries.contains e then q
  else if q.entries.length < Config.noticeDepth then { q with entries := q.entries ++ [e] }
  else { q with overflowed := true }

/-- Offer one entry to one queue, and check it (R25). -/
def offerTo (e : NoticeEntry) (m : Master) (s : State) : State :=
  noticeCheck m (setQueue m (appendEntry e (queueOf s m)) s)

/-- Offer one entry to each of the three queues (R25). -/
def offer (e : NoticeEntry) (s : State) : State :=
  offerTo e .service (offerTo e .chassis (offerTo e .front s))

/-- The store hands a record's tag for appending (R25, R26). -/
def hand (t : Fin 40) (s : State) : State :=
  if s.work.handed.contains t then s else { s with work := { s.work with handed := s.work.handed ++ [t] } }

/-- Remove a released tag from every queue and from the tags handed in this event (R27). -/
def dropTag (t : Fin 40) (s : State) : State :=
  let cut (q : NoticeQueue) : NoticeQueue := { q with entries := q.entries.filter (· ≠ .tag t) }
  { s with
    notice := Vector.ofFn fun k : Fin 3 => cut s.notice[k]
    work := { s.work with handed := s.work.handed.filter (· ≠ t) } }

/-- Rename a superseded tag in its place in every queue (R27). -/
def renameTag (a b : Fin 40) (s : State) : State :=
  let ren (q : NoticeQueue) : NoticeQueue :=
    { q with entries := q.entries.map fun e => if e = .tag a then .tag b else e }
  { s with
    notice := Vector.ofFn fun k : Fin 3 => ren s.notice[k]
    work := { s.work with handed := s.work.handed.filter (· ≠ a) } }

/-! ## Changes of the unit status inside an event -/

/-- The function status table, MISSING_FUNCTION and LAMP_FAULT take the values the state gives them (R55 to R57, R140). -/
def reconcile (s : State) : State :=
  { s with
    plan := { s.plan with status := statusTable s }
    cc := { s.cc with
      causes := { s.cc.causes with missingFunction := requiredMissing s, lampFault := anyLampFault s } } }

/-- What a SUMMARY is sent for a change of: coupling state, quality, units behind (R180). -/
def summaryView (s : State) : CouplingState × Quality × Nat := (s.cc.state, quality s, unitsBehind s)

/-- The end of one step of an event that began at `old`. Reconciled before and after it (R55), a change of the unit status
or of what a SUMMARY tells of is marked, so that a later step of the same event cannot undo it unseen (R26, R180). -/
def watched (old s : State) : State :=
  let a := reconcile old
  let b := reconcile s
  { s with
    work := { s.work with
      statusTurned := s.work.statusTurned || decide (statusView b ≠ statusView a)
      summaryTurned := s.work.summaryTurned || decide (summaryView b ≠ summaryView a) } }

/-! ## Writing a record in place (R3, R16) -/

/-- The record of a tag takes new contents: the generation advances by one and, unless the writer marks the
update silent, the tag is handed. Contents equal to the present ones change nothing (R98). -/
def putContent (t : Fin 40) (c : Content) (silent : Bool) (s : State) : State :=
  match s.store.records[t] with
  | none => s
  | some r =>
    if r.content = c then s
    else
      let s := setPlace t (some ⟨r.gen + 1, c⟩) s
      if silent then s else hand t s

/-- One update of the record of a tag, whether or not its contents differ from the present ones. -/
def touchContent (t : Fin 40) (c : Content) (s : State) : State :=
  match s.store.records[t] with
  | none => s
  | some r => hand t (setPlace t (some ⟨r.gen + 1, c⟩) s)

/-- An update of the record whose change stands outside its stored fields: the referenced mark (R6, R156). -/
def touchRecord (t : Fin 40) (s : State) : State :=
  (s.store.records[t]).elim s fun r => touchContent t r.content s

/-! ## Running one operation over a list -/

/-- Apply an operation for each element in order. -/
def forEach (xs : List α) (f : α → State → State) (s : State) : State := xs.foldl (fun s x => f x s) s

end Sys2Proof.Machine
end

