-- ==== Sys2Proof/Machine/Lamps.lean ====
section
/-! DEFINITION. The lamp block: drive, the flash timebase, the reading of a sample (chapter 7). -/

namespace Sys2Proof.Machine

/-- A fault state that withholds the channel: SHORT or LOCKED (R119). -/
def FaultState.latched : FaultState → Bool
  | .short => true
  | .locked => true
  | _ => false

/-- The condition of R130 for a channel to be driven. -/
def driveCondition (tb : Timebase) (c : LampChannel) : Bool :=
  !FaultState.latched c.fault &&
    match c.command with
    | .off => false
    | .steady _ => true
    | .flash _ => decide (tb = .on)

/-- A channel becomes driven or ceases to be driven (R130). -/
def refreshChannel (tb : Timebase) (c : LampChannel) : LampChannel :=
  let d := driveCondition tb c
  if d = c.driven then c
  else { c with driven := d, sampleTimer := if d then .running else .stopped, lowCount := 0, normalCount := 0 }

/-- A command is FLASH. -/
def Cmd.isFlash : Cmd → Bool
  | .flash _ => true
  | _ => false

/-- Some channel's command is FLASH (R132). -/
def anyFlash (s : State) : Bool := (List.finRange 24).any fun ch => Cmd.isFlash s.lamp.channels[ch].command

/-- Every channel follows the timebase and its own command and fault state (R130). -/
def refreshDriven (s : State) : State :=
  { s with lamp := { s.lamp with
    channels := Vector.ofFn fun ch : Fin 24 => refreshChannel s.lamp.timebase s.lamp.channels[ch] } }

/-- Set the timebase and its phase timer. -/
def setTimebase (tb : Timebase) (t : Timer) (s : State) : State :=
  { s with lamp := { s.lamp with timebase := tb, phaseTimer := t } }

/-- Start and stop of the timebase (R132), with the PHASE frame of R133. -/
def refreshTimebase (s : State) : State :=
  if anyFlash s then
    if s.lamp.timebase = .stopped then
      let s := setTimebase .on .running s
      if s.chain.rear = .linked then sendPhase s else s
    else s
  else setTimebase .stopped .stopped s

/-- The lamp block takes the commands at this event (R130, R132). -/
def refreshLamps (s : State) : State := refreshDriven (refreshTimebase s)

/-- Change a channel's fault state: the counts return to 0 (R135), and a latch stops the clear window (R139). -/
def setFault (ch : Fin 24) (f : FaultState) (s : State) : State :=
  let c := s.lamp.channels[ch]
  setChannel ch
    { c with
      fault := f, lowCount := 0, normalCount := 0,
      clearWindow := if FaultState.latched f then .stopped else c.clearWindow } s

/-- Both counts of a channel return to 0 (R135). -/
def resetCounts (ch : Fin 24) (s : State) : State :=
  setChannel ch { s.lamp.channels[ch] with lowCount := 0, normalCount := 0 } s

/-- State of a LAMP record (R140). -/
def lampStateOf (f : FaultState) (cls : LoadClass) : LampState :=
  match f with
  | .normal => if cls = .noLoad then .missing else .present
  | .opened => .opened
  | .short => .short
  | .locked => .locked

/-- Level of a command. -/
def Cmd.level : Cmd → Nat
  | .off => 0
  | .steady l => l
  | .flash l => l

/-- A sample, in tenths of a unit, scaled to full level, rounded to the nearest unit and capped at 127
(R94, R136): floor (t·31 / (10·L) + 1/2). -/
def scaledBand (tenths level : Nat) : Nat := min 127 ((2 * tenths * 31 + 10 * level) / (20 * level))

/-- Class of a scaled band (R94). -/
def classOfBand (b : Nat) : LoadClass := if b = 0 then .noLoad else if b ≤ 8 then .led else .filament

/-- A sample above 128 units is a short (R131). -/
def isShortSample (tenths : Nat) : Bool := 1280 < tenths

/-- A sample is low: below a quarter of band·L/31, without rounding (R135). -/
def isLowSample (tenths band level : Nat) : Bool := tenths * 124 < 10 * band * level

/-- Band of a classified load: 0 for NONE and 127 for SHORT (R93, log entry 15). -/
def bandOf (cls : LoadClass) (band : Nat) : Nat :=
  match cls with
  | .noLoad => 0
  | .short => 127
  | _ => min 127 band

end Sys2Proof.Machine
end

