-- ==== Sys2Proof/Machine/Arbiter.lean ====
section
/-! DEFINITION. The claim arbiter: classes, resolution, the budget filter, the fault filter (chapter 6). -/

namespace Sys2Proof.Machine

/-- Class of a claimant's claims, the hold being effective or not (R107). -/
def classOf (hold : Bool) : Claimant → ClaimClass
  | .front => .road
  | .chassis => .safety
  | .service => if hold then .test else .work
  | .unit => .fallback

/-- Rank of a class (R107). -/
def ClaimClass.rank : ClaimClass → Nat
  | .work => 0
  | .fallback => 1
  | .road => 2
  | .safety => 3
  | .test => 4
  | .line => 5

/-- Rank of a mode: FLASH beats STEADY, STEADY beats OFF (R114). -/
def modeRank : ClaimMode → Nat
  | .off => 0
  | .steady => 1
  | .flash => 2

/-- A candidate in resolution (R114). -/
structure Candidate where
  cls : ClaimClass
  claimant : Option Claimant
  fn : Nat
  mode : ClaimMode
  level : Nat
  deriving DecidableEq, Repr

/-- The effective level of a claim on a function bound at a binding level (R110). -/
def effectiveLevel (fn : Nat) (arg : LevelArg) (binding : Nat) : Nat :=
  match arg with
  | .num l => if isWorkFn fn then l else binding
  | .dflt => binding

/-- A claim is HELD: a FRONT claim while the hold is effective (R107). -/
def isHeld (s : State) (c : Claimant) : Bool := decide (c = .front) && holdEffective s

/-- The four claimants. -/
def claimants : List Claimant := [.front, .chassis, .service, .unit]

/-- Candidates that one binding brings. -/
def bindingCandidates (s : State) (b : Binding) : List Candidate :=
  (claimants.filterMap fun c =>
      if isHeld s c then none
      else
        (claimAt s c b.fn).map fun v =>
          { cls := classOf (holdEffective s) c, claimant := some c, fn := b.fn, mode := v.mode,
            level := effectiveLevel b.fn v.level b.level }) ++
    (if b.fn = fnStop && stopForceEffect s then
      [{ cls := .line, claimant := none, fn := fnStop, mode := .steady, level := b.level }]
    else [])

/-- Candidates of a channel, its first-bound function first (R114, step 1). -/
def candidates (s : State) (ch : Fin 24) : List Candidate :=
  (s.plan.active.lamps[ch].bindings.map (bindingCandidates s)).flatten

/-- A candidate beats another: by class, then mode, then level (R114, steps 2 to 4). -/
def Candidate.beats (a b : Candidate) : Bool :=
  decide (b.cls.rank < a.cls.rank) ||
    (decide (a.cls.rank = b.cls.rank) &&
      (decide (modeRank b.mode < modeRank a.mode) ||
        (decide (modeRank a.mode = modeRank b.mode) && decide (b.level < a.level))))

/-- The winner of a list of candidates; in a tie the earlier one stays (R114, step 4). -/
def winner : List Candidate → Option Candidate
  | [] => none
  | c :: cs =>
    match winner cs with
    | none => some c
    | some d => if d.beats c then some d else some c

/-- The resolved command of a winner (R114). -/
def resolvedOf : Option Candidate → Resolved
  | none => Resolved.off
  | some c =>
    match c.mode with
    | .off => Resolved.off
    | .steady => ⟨.steady c.level, some c.cls, c.claimant, some c.fn⟩
    | .flash => ⟨.flash c.level, some c.cls, c.claimant, some c.fn⟩

/-- The resolved command of a channel (R114). -/
def resolve (s : State) (ch : Fin 24) : Resolved := resolvedOf (winner (candidates s ch))

/-! ## Budget filter (R117, R118) -/

/-- A channel is withheld by the fault filter (R119). -/
def withheld (s : State) (ch : Fin 24) : Bool := FaultState.latched s.lamp.channels[ch].fault

/-- Expected band counted for a channel (R117). -/
def countedBand (s : State) (ch : Fin 24) : Nat := (lampRecord s ch).elim Config.unrecordedBand (·.expected)

/-- Expected current of a channel at a level, rounded up; 0 for a withheld channel (R117). -/
def expectedCurrent (s : State) (ch : Fin 24) (level : Nat) : Nat :=
  if withheld s ch then 0 else (countedBand s ch * level + 30) / 31

/-- Expected current of a channel's resolved command. -/
def channelCurrent (s : State) (ch : Fin 24) : Nat := expectedCurrent s ch s.arb.resolved[ch].cmd.level

/-- The classes that step 1 of R118 admits. -/
def admittedFirst : Option ClaimClass → Bool
  | some .line => true
  | some .test => true
  | some .safety => true
  | _ => false

/-- Total of step 1 of R118. -/
def firstTotal (s : State) : Nat :=
  (((List.finRange 24).filter fun ch => admittedFirst s.arb.resolved[ch].cls).map (channelCurrent s)).sum

/-- One channel of step 2 of R118: the running total and the channels shed so far. -/
def admitOne (s : State) (a : Nat × List (Fin 24)) (ch : Fin 24) : Nat × List (Fin 24) :=
  if withheld s ch then a
  else if a.1 + channelCurrent s ch ≤ budget s then (a.1 + channelCurrent s ch, a.2)
  else (a.1, ch :: a.2)

/-- Channels whose winning class is the one given, ascending. -/
def channelsOfClass (s : State) (c : ClaimClass) : List (Fin 24) :=
  (List.finRange 24).filter fun ch => s.arb.resolved[ch].cls = some c

/-- Total and shed channels after step 2 of R118: ROAD, then FALLBACK, then WORK. -/
def admission (s : State) : Nat × List (Fin 24) :=
  (channelsOfClass s .road ++ channelsOfClass s .fallback ++ channelsOfClass s .work).foldl (admitOne s)
    (firstTotal s, [])

/-! ## The drive command -/

/-- The filtered command of a channel (R119). -/
def filteredCmd (s : State) (ch : Fin 24) : Cmd :=
  if s.arb.shed[ch] || withheld s ch then .off else s.arb.resolved[ch].cmd

/-- Write the resolved commands of every channel (R114). -/
def resolveAll (s : State) : State :=
  { s with arb := { s.arb with resolved := Vector.ofFn fun ch : Fin 24 => resolve s ch } }

/-- Write the shed marks (R118). -/
def filterBudget (s : State) : State :=
  let shed := (admission s).2
  { s with arb := { s.arb with shed := Vector.ofFn fun ch : Fin 24 => shed.contains ch } }

/-- Hand every filtered command to the lamp block (R119). -/
def handCommands (s : State) : State :=
  { s with lamp := { s.lamp with
    channels := Vector.ofFn fun ch : Fin 24 => { s.lamp.channels[ch] with command := filteredCmd s ch } } }

/-- Resolution and the filters over all channels, and what the lamp block does with the commands (R115). -/
def rearbitrate (s : State) : State := refreshLamps (handCommands (filterBudget (resolveAll s)))

/-! ## Claims -/

/-- Remove every claim of a claimant. -/
def clearClaims (c : Claimant) (s : State) : State :=
  { s with arb := { s.arb with claims := s.arb.claims.set (claimantIx c) (Vector.replicate 16 none) } }

/-- Place the six fallback claims (R122). -/
def placeFallback (s : State) : State :=
  forEach [5, 6, 7, 8, 9, 10] (fun f => setClaim .unit f (some ⟨.steady, .dflt⟩)) s

/-- Remove the SERVICE claims on SIGNAL and MARKING functions (R125). -/
def dropTestClaims (s : State) : State :=
  forEach [0, 1, 2, 3, 4, 5, 6, 7, 8, 9, 10] (fun f => setClaim .service f none) s

/-- The arbiter judges the hold after a change from `old` (R123 to R125), and resolves every channel. -/
def arbAfter (old : State) (s : State) : State :=
  rearbitrate (if holdEffective old && !holdEffective s then dropTestClaims s else s)

end Sys2Proof.Machine
end

