-- ==== Sys2Proof/Machine/Actuators.lean ====
section
/-! DEFINITION. The actuator block: the conditions of a run, its end, the position rules (chapter 9). -/

namespace Sys2Proof.Machine

/-- The plan entry of an output. -/
def actEntry (s : State) (o : Fin 6) : ActEntry := s.plan.active.acts[o]

/-- The counter a position link names; none for a number above 1. -/
def linkCounter (l : PosLink) : Option (Fin 2) := if h : l.counter < 2 then some ⟨l.counter, h⟩ else none

/-- The counter that an output's plan entry links (R41). -/
def counterOf (s : State) (o : Fin 6) : Option (Fin 2) := (actEntry s o).link.bind linkCounter

/-- Outputs whose plan entry links a counter; the commit check allows one (R44). -/
def linkedOuts (s : State) (c : Fin 2) : List (Fin 6) := (List.finRange 6).filter fun o => counterOf s o = some c

/-- The counter of an output is REFERENCED. -/
def referenced (s : State) (o : Fin 6) : Bool := (counterOf s o).any fun c => s.input.counters[c].referenced

/-- An ACTUATOR record with holder, run state and last end reason of its output (R160). -/
def mirrored (x : Actuator) (r : ActRec) : ActRec := { r with holder := x.holder, run := x.run, lastEnd := x.lastEnd }

/-- Write holder, run state and last end reason of an output into its live record, as one update (R160). -/
def mirrorWith (o : Fin 6) (f : ActRec → ActRec) (s : State) : State :=
  match liveRecord s (.actuator o) with
  | some (t, ⟨_, .actuator _ r⟩) => putContent t (.actuator o (f (mirrored s.act.outs[o] r))) false s
  | _ => s

/-- Mirror an output in its record. -/
def mirrorOut (o : Fin 6) (s : State) : State := mirrorWith o id s

/-- The reasons for which a run's end drops the hold (R162, step 3). -/
def EndReason.dropsHold : EndReason → Bool
  | .given => true
  | .silence => true
  | .parting => true
  | _ => false

/-- The output after the end of its run (R162, steps 1 to 3). -/
def endedOut (reason : EndReason) (x : Actuator) : Actuator :=
  { holder := if EndReason.dropsHold reason then none else x.holder, run := .idle, kind := .none, target := none,
    runTimer := .stopped, runLimit := none, stallTimer := .stopped, lastEnd := some reason }

/-- A STALL sets the record to FAULT (R162, step 4). -/
def endedRec (reason : EndReason) (r : ActRec) : ActRec :=
  if reason = .stall then { r with state := .fault } else r

/-- The end of a run, one event with one reason (R162). -/
def endRun (o : Fin 6) (reason : EndReason) (s : State) : State :=
  mirrorWith o (endedRec reason) (setOut o (endedOut reason s.act.outs[o]) s)

/-- A run that ends with TARGET at its start: its start and its end are one update of the record, whatever the record
held (R167). -/
def endMet (o : Fin 6) (s : State) : State :=
  let s := setOut o (endedOut .target s.act.outs[o]) s
  match liveRecord s (.actuator o) with
  | some (t, ⟨_, .actuator _ r⟩) => touchContent t (.actuator o (mirrored s.act.outs[o] r)) s
  | _ => s

/-- Release the hold of an output without a run (R164, R170). -/
def freeOut (o : Fin 6) (s : State) : State :=
  mirrorOut o (setOut o { s.act.outs[o] with holder := none } s)

/-- End the holds of a master, and their runs with a reason (R170). -/
def dropHolds (m : Master) (reason : EndReason) (s : State) : State :=
  forEach (List.finRange 6)
    (fun o s =>
      if s.act.outs[o].holder = some m then
        if running s o then endRun o reason s else freeOut o s
      else s) s

/-! ## Conditions of a run (R165, R166) -/

/-- An interlock holds at this moment (R165). -/
def interlockHolds (s : State) : Interlock → Bool
  | .parked => parked s
  | .coupled => coupled s
  | .uncoupled => decide (s.cc.state = .quiet) || decide (s.cc.state = .localAwake)
  | .senseOpened f => decide (senseLevel s f = .opened)
  | .senseClosed f => decide (senseLevel s f = .closed)

/-- Every interlock of the output's entry holds. -/
def interlocksHold (s : State) (o : Fin 6) : Bool := (actEntry s o).interlocks.all (interlockHolds s)

/-- The class a run kind started under (R165). -/
def kindClass : RunKind → ActClass
  | .energise => .valve
  | _ => .motor

/-- The interlocks and run conditions of a run in progress (R165). -/
def runMayGoOn (s : State) (o : Fin 6) : Bool :=
  let e := actEntry s o
  let k := s.act.outs[o].kind
  e.fn.isSome && decide (e.cls = kindClass k) && (decide (k ≠ .target) || (e.link.isSome && referenced s o)) &&
    interlocksHold s o

/-- Judge the conditions of every run in progress; each that fails ends with INTERLOCK (R166). -/
def judgeRuns (s : State) : State :=
  forEach (List.finRange 6) (fun o s => if running s o && !runMayGoOn s o then endRun o .interlock s else s) s

/-- A change of coupling state or motion, taken by the arbiter and by the actuator block (R123, R166). -/
def changeCoupling (f : State → State) (s : State) : State := judgeRuns (arbAfter s (f s))

/-! ## Position rules (R167) -/

/-- A TARGET run has reached or passed its target. -/
def targetMet (x : Actuator) (count : Nat) : Bool :=
  match x.kind, x.target, x.run with
  | .target, some t, .runA => decide (t ≤ count)
  | .target, some t, .runB => decide (count ≤ t)
  | _, _, _ => false

/-- A DIRECTION run with a REFERENCED counter stands at or beyond its limit. -/
def limitMet (x : Actuator) (l : PosLink) (c : Counter) : Bool :=
  decide (x.kind = .direction) && c.referenced &&
    match x.run with
    | .runA => decide (l.high ≤ c.count)
    | .runB => decide (c.count ≤ l.low)
    | _ => false

/-- The position rules for one output at its linked counter (R167). -/
def positionRule (c : Fin 2) (o : Fin 6) (s : State) : State :=
  let x := s.act.outs[o]
  let k := s.input.counters[c]
  match (actEntry s o).link with
  | none => s
  | some l => if targetMet x k.count then endRun o .target s else if limitMet x l k then endRun o .limit s else s

/-- The position rules at a change of a counter's count or mark (R167). -/
def positionRules (c : Fin 2) (s : State) : State := forEach (linkedOuts s c) (positionRule c) s

/-- A change of the referenced mark updates the linked output's record, if it has a position part (R156). -/
def touchLinked (c : Fin 2) (s : State) : State :=
  forEach (linkedOuts s c)
    (fun o s =>
      match liveRecord s (.actuator o) with
      | some (t, ⟨_, .actuator _ r⟩) => if r.pos.isSome then touchRecord t s else s
      | _ => s) s

/-- A counter takes a new count and mark: the linked record at a change of the mark, the position rules at a change of
either, then the conditions of runs at a change of the mark (R156, R166, R167). That the position rules come before the
conditions, which no rule orders, is the model's choice (DESIGN CHOICE, log entry 53). -/
def moveCounter (c : Fin 2) (x : Counter) (s : State) : State :=
  let old := s.input.counters[c]
  let s := setCounter c x s
  if old.referenced = x.referenced then
    if old.count = x.count then s else positionRules c s
  else judgeRuns (positionRules c (touchLinked c s))

/-! ## Starting a run (R167) -/

/-- The output at the start of a run: a MOTOR takes the entry's run limit and its run timer starts. -/
def startedOut (e : ActEntry) (run : RunState) (kind : RunKind) (target : Option Nat) (x : Actuator) : Actuator :=
  { x with
    run := run, kind := kind, target := target,
    runTimer := if e.cls = .motor then .running else .stopped,
    runLimit := if e.cls = .motor then e.runLimit else none, stallTimer := .stopped }

/-- Start a run on an output, without its record. -/
def startRun (o : Fin 6) (run : RunState) (kind : RunKind) (target : Option Nat) (s : State) : State :=
  setOut o (startedOut (actEntry s o) run kind target s.act.outs[o]) s

end Sys2Proof.Machine
end

