-- ==== Sys2Proof/Machine/Sensors.lean ====
section
/-! DEFINITION. The input block: debouncers, function levels, homing, values and bands, the wake snapshot
(chapter 8). -/

namespace Sys2Proof.Machine

/-- The plan entry of an input. -/
def sensorEntry (s : State) (i : Fin 10) : SensorEntry := s.plan.active.sensors[i]

/-- Contact level of a pin. -/
def contactOf (closed : Bool) : Contact := if closed then .closed else .opened

/-- Value of a switch level: 1 for CLOSED, 0 for OPEN (R147). -/
def contactValue (c : Contact) : Nat := if c = .closed then 1 else 0

/-! ## Homing and function levels -/

/-- Home a counter: count 0 and REFERENCED (R157). -/
def homeCounter (c : Fin 2) (s : State) : State :=
  let x := s.input.counters[c]
  if x.referenced && decide (x.count = 0) then s else moveCounter c { x with count := 0, referenced := true } s

/-- A home function moves into CLOSED: every counter whose link names it is homed (R157). -/
def homeFor (fn : Nat) (s : State) : State :=
  forEach (List.finRange 6)
    (fun o s =>
      match (actEntry s o).link with
      | some l => if l.home = fn then (linkCounter l).elim s fun c => homeCounter c s else s
      | none => s) s

/-- Function code of a SENSE place: 22 to 27 (R37). -/
def senseCode (k : Fin 6) : Nat := 22 + k.val

/-- Derive the levels of the SENSE functions again: moves into CLOSED home counters, and every change is judged
by the runs (R43, R148 step 3). -/
def senseScan (s : State) : State :=
  let fresh : Vector Contact 6 := Vector.ofFn fun k : Fin 6 => senseLevel s (senseCode k)
  if fresh = s.input.sense then s
  else
    let into := (List.finRange 6).filter fun k => decide (fresh[k] = .closed) && decide (s.input.sense[k] ≠ .closed)
    judgeRuns (forEach into (fun k => homeFor (senseCode k)) { s with input := { s.input with sense := fresh } })

/-! ## Values and bands (R151) -/

/-- Value of a raw reading under a calibration part (R151). -/
def calibValue (k : Calib) (raw : Nat) : Nat := min 9999 ((raw - k.offset) * k.span / 1000)

/-- Value of a raw reading (R151). -/
def sensorValue (k : Option Calib) (raw : Nat) : Nat := k.elim raw (calibValue · raw)

/-- Band of a value (R151). -/
def sensorBand (k : Option Calib) (value : Nat) : Band :=
  match k with
  | none => .outside
  | some c => if value < c.low then .low else if c.high < value then .high else .normal

/-! ## Debouncers at a plan load (R147) -/

/-- The debouncer of an input whose class becomes SWITCH. -/
def startedDebouncer (x : Input) : Input := { x with level := .unknown, settled := false, debounce := .running }

/-- The debouncer of an input whose class becomes other than SWITCH. -/
def clearedDebouncer (x : Input) : Input := { x with level := .unknown, settled := false, debounce := .stopped }

/-- The debouncer of an input at a load that changes its class from `old` to `new`. -/
def reclassInput (old new : SensorClass) (x : Input) : Input :=
  if new = .switch then (if old = .switch then x else startedDebouncer x)
  else if old = .switch then clearedDebouncer x
  else x

/-- Every debouncer at a load that replaces the plan `old` by the active plan (R147). -/
def reclassInputs (old : Plan) (s : State) : State :=
  { s with input := { s.input with
    inputs := Vector.ofFn fun i : Fin 10 =>
      reclassInput old.sensors[i].cls (sensorEntry s i).cls s.input.inputs[i] } }

/-! ## Wake snapshot (R155) -/

/-- An input is a wake input of the active plan. -/
def isWake (s : State) (i : Fin 10) : Bool := decide ((sensorEntry s i).cls = .switch) && (sensorEntry s i).wake

/-- The wake snapshot taken at an entry to QUIET (R155). -/
def takeSnapshot (s : State) : State :=
  { s with input := { s.input with
    inputs := Vector.ofFn fun i : Fin 10 =>
      { s.input.inputs[i] with snapshot := if isWake s i then some s.input.inputs[i].level else none } } }

/-- Every snapshot entry none (R159). -/
def clearSnapshot (s : State) : State :=
  { s with input := { s.input with
    inputs := Vector.ofFn fun i : Fin 10 => { s.input.inputs[i] with snapshot := none } } }

/-- The debounced level of an input is a wake change: it differs from a snapshot entry OPEN or CLOSED (R155). -/
def wakeChange (x : Input) : Bool :=
  match x.snapshot with
  | some .opened => decide (x.level ≠ .opened)
  | some .closed => decide (x.level ≠ .closed)
  | _ => false

end Sys2Proof.Machine
end

