-- ==== Sys2Proof/Machine/Store.lean ====
section
/-! DEFINITION. The record store: contents made from results, create, update, release, supersede, the pending
allocation queue (chapter 1). -/

namespace Sys2Proof.Machine

/-! ## Contents made from results -/

/-- LAMP record of a probe result, the lamp block holding the fault state after R98 step 1 (R4, R8, R140). -/
def lampContent (s : State) (ch : Fin 24) (cls : LoadClass) (band : Nat) (old : Option LampRec) : Content :=
  let entry := s.plan.active.lamps[ch]
  let b := bandOf cls band
  .lamp ch
    { loadClass := cls
      expected := if cls = .short then old.elim b (·.expected) else b
      last := b
      openMask := old.elim entry.openMask (·.openMask)
      bound := channelFns s.plan.active ch
      unassigned := !channelBound s.plan.active ch
      state := lampStateOf s.lamp.channels[ch].fault cls }

/-- The calibration part of a SENSOR record made or kept with a number of cells (R9, log entry 17). -/
def calibFor (s : State) (i : Fin 10) (cells : Nat) (old : Option SensorRec) : Option Calib :=
  if cells ≤ 1 then none
  else if s.cc.bringUp then (sensorEntry s i).calib <|> old.bind (·.calib)
  else old.bind (·.calib) <|> (sensorEntry s i).calib

/-- A SENSOR record that no reading has written yet, class and function from the plan entry. -/
def freshSensor (s : State) (i : Fin 10) (k : Option Calib) : SensorRec :=
  { resistive := decide ((sensorEntry s i).cls = .resistive), raw := 0, value := 0, band := .outside,
    changeCount := 0, fn := (sensorEntry s i).fn, calib := k, state := .valid }

/-- The record a MEASURE result starts from: class and function written from the plan entry (R149, R152). -/
def sensorBase (s : State) (i : Fin 10) (k : Option Calib) (old : Option SensorRec) : SensorRec :=
  match old with
  | none => freshSensor s i k
  | some r =>
    { r with resistive := decide ((sensorEntry s i).cls = .resistive), fn := (sensorEntry s i).fn, calib := k }

/-- A VALID reading written into a record: value and band, the change count advancing with the band (R151, R152). -/
def writeReading (created : Bool) (raw : Nat) (r : SensorRec) : SensorRec :=
  let v := sensorValue r.calib raw
  let b := sensorBand r.calib v
  { r with
    raw := raw, value := v, band := b, state := .valid,
    changeCount := if created || decide (b = r.band) then r.changeCount else r.changeCount + 1 }

/-- A switch level written into a record (R149): the count advances when the level differs from its value. -/
def writeLevel (created : Bool) (v : Nat) (r : SensorRec) : SensorRec :=
  { r with
    raw := v, value := v, band := .outside, state := .valid,
    changeCount := if created || decide (r.value = v) then r.changeCount else r.changeCount + 1 }

/-- SENSOR record of a MEASURE result (R149, R152). -/
def sensorContent (s : State) (i : Fin 10) (res : SensorResult) (cells : Nat) (old : Option SensorRec) : Content :=
  let r := sensorBase s i (calibFor s i cells old) old
  .sensor i
    (match res with
    | .switch c => writeLevel old.isNone (contactValue (contactOf c)) r
    | .valid raw => writeReading old.isNone raw r
    | .short raw => { r with raw := raw, state := .short }
    | .opened => { r with state := .opened }
    | .unused => r)

/-- State of an ACTUATOR record after a CHECK (R171). -/
def checkState : CheckResult → ActState
  | .load => .ready
  | .noLoad => .missing
  | .short => .fault

/-- The position part of an ACTUATOR record with a number of cells: counter and limits from the plan entry
(R6, R9, log entry 17). -/
def posFor (s : State) (o : Fin 6) (cells : Nat) (old : Option ActRec) : Option PosPart :=
  if cells ≤ 2 then none
  else ((actEntry s o).link.map fun l => ⟨l.counter, l.low, l.high⟩) <|> old.bind (·.pos)

/-- ACTUATOR record of a CHECK result; holder, run state and last end reason are the block's (R6, R171). -/
def actContent (s : State) (o : Fin 6) (res : CheckResult) (cells : Nat) (old : Option ActRec) : Content :=
  let e := actEntry s o
  let x := s.act.outs[o]
  .actuator o
    { cls := e.cls, fn := e.fn, holder := x.holder, run := x.run, lastEnd := x.lastEnd, runLimit := e.runLimit,
      interlocks := e.interlocks, pos := posFor s o cells old, state := checkState res }

/-- UNIT record as the chain block holds it, with the number last assigned (R7, R177, log entry 48). -/
def unitContent (s : State) : Content :=
  let r := s.chain.report.getD default
  .unit
    { number := s.chain.assigned, coupling := r.coupling, quality := r.quality, causes := r.causes,
      unitsBehind := r.unitsBehind, linked := decide (s.chain.rear = .linked) }

/-- SENSOR record of a debounced change without a live record: one cell, class SWITCH, the held function, level and
count. Written over a record made meanwhile it takes the record's own change count, advanced by one where the held level
differs from the record's value (R12, R148, log entry 28). -/
def heldSwitchContent (h : HeldSwitch) (old : Option SensorRec) : Content :=
  let v := contactValue (contactOf h.closed)
  .sensor h.input
    { resistive := false, raw := v, value := v, band := .outside,
      changeCount := old.elim h.count fun r => if r.value = v then r.changeCount else r.changeCount + 1,
      fn := h.fn, calib := none, state := .valid }

/-- LAMP part of contents. -/
def Content.lampRec : Content → Option LampRec
  | .lamp _ r => some r
  | _ => none

/-- SENSOR part of contents. -/
def Content.sensorRec : Content → Option SensorRec
  | .sensor _ r => some r
  | _ => none

/-- ACTUATOR part of contents. -/
def Content.actRec : Content → Option ActRec
  | .actuator _ r => some r
  | _ => none

/-- Contents that a step result makes of the present contents, with a number of cells (R8, R9). -/
def resultContent (s : State) (res : StepResult) (cells : Nat) (old : Option Content) : Content :=
  match res with
  | .lamp ch cls band => lampContent s ch cls band (old.bind Content.lampRec)
  | .sensor i r => sensorContent s i r cells (old.bind Content.sensorRec)
  | .actuator o r => actContent s o r cells (old.bind Content.actRec)

/-- Contents that a held requester writes (R12): a sequencer its held result, the coupling controller its held
level, the chain block its latest report. -/
def heldContent (s : State) (q : AllocReq) (old : Option Content) : Option Content :=
  match q.requester with
  | .sq n => s.probe.seqs[n].held.map fun res => resultContent s res q.cells old
  | .chain => some (unitContent s)
  | .coupling => s.cc.heldSwitch.map fun h => heldSwitchContent h (old.bind Content.sensorRec)

/-! ## Writing records with their consequences -/

/-- What a change of a LAMP record brings: counts (R135) and the arbiter's filters (R115). -/
def afterLampChange (ch : Fin 24) (a b : LampRec) (s : State) : State :=
  let s :=
    if a.expected = b.expected && a.loadClass = b.loadClass && a.openMask = b.openMask then s else resetCounts ch s
  if a.expected = b.expected then s else rearbitrate s

/-- What a change of contents brings to the other blocks. -/
def afterChange (a b : Content) (s : State) : State :=
  match a, b with
  | .lamp ch r, .lamp _ r' => afterLampChange ch r r' s
  | .sensor _ _, .sensor _ _ => senseScan s
  | _, _ => s

/-- Update in place (R16), with what it brings to the lamp, arbiter and input blocks. -/
def updateRec (t : Fin 40) (c : Content) (silent : Bool) (s : State) : State :=
  match s.store.records[t] with
  | none => s
  | some r => if r.content = c then s else watched s (afterChange r.content c (putContent t c silent s))

/-- What the appearance or the disappearance of a record brings to the other blocks (R115, R135, R43, R164). -/
def afterPresence (c : Content) (released : Bool) (s : State) : State :=
  match c with
  | .lamp ch _ => rearbitrate (resetCounts ch s)
  | .sensor _ _ => senseScan s
  | .actuator o _ => if released then setOut o { s.act.outs[o] with holder := none } s else s
  | .unit _ => s

/-- Create a record at the lowest free tag, generation 0 (R2, R11). -/
def createRec (c : Content) (s : State) : State :=
  match lowestFree s.store with
  | none => s
  | some t => watched s (afterPresence c false (hand t (setPlace t (some ⟨0, c⟩) s)))

/-- Take a record away, without the re-try of R14 (R18). -/
def removeRec (t : Fin 40) (s : State) : State :=
  match s.store.records[t] with
  | none => s
  | some r => watched s (afterPresence r.content true (dropTag t (setPlace t none s)))

/-- Supersede a record by one of another cell count, in one store step, without the re-try (R17). -/
def supersedeRaw (t : Fin 40) (c : Content) (s : State) : State :=
  match s.store.records[t], lowestFree s.store with
  | some r, some u =>
    watched s (afterChange r.content c (hand u (renameTag t u (setPlace t none (setPlace u (some ⟨r.gen + 1, c⟩) s)))))
  | _, _ => s

/-- The SENSOR record an application of a result gives is no news: band, state, class and function are the same,
and the input is RESISTIVE (R152). -/
def silentSensor (a b : SensorRec) : Bool :=
  b.resistive && decide (a.band = b.band) && decide (a.state = b.state) && decide (a.resistive = b.resistive) &&
    decide (a.fn = b.fn)

/-- An update is silent (R16): only a RESISTIVE reading within its band. -/
def silentUpdate : Content → Content → Bool
  | .sensor _ a, .sensor _ b => silentSensor a b
  | _, _ => false

/-- Contents made for a subject: contents of another subject are none (R2). -/
def contentFor (j : Subject) (c : Option Content) : Option Content := c.filter fun x => decide (x.subject = j)

/-- Make a record of contents for its subject: create it, or apply it to the live record, in place or by a
supersede when the cell counts differ (R11, R12). -/
def writeContent (subject : Subject) (mk : Option Content → Option Content) (s : State) : State :=
  match liveRecord s subject with
  | none => (contentFor subject (mk none)).elim s fun c => createRec c s
  | some (t, r) =>
    (contentFor subject (mk (some r.content))).elim s fun c =>
      if c.cells = r.content.cells then updateRec t c (silentUpdate r.content c) s else supersedeRaw t c s

/-! ## The pending allocation queue -/

/-- A free tag and enough free cells (R11). -/
def hasRoom (s : State) (cells : Nat) : Bool := decide (0 < freeTags s) && decide (cells ≤ freeCells s)

/-- A pending request fits: it has room, or needs none since a live record of its subject has its cell count
(R12, log entry 17). -/
def fits (s : State) (q : AllocReq) : Bool :=
  hasRoom s q.cells || (liveRecord s q.subject).any fun p => decide (p.2.content.cells = q.cells)

/-- The requester lets go of what it held for a completed request (R12, R98). -/
def dropHeld (r : Requester) (s : State) : State :=
  match r with
  | .sq n => setSeq n { s.probe.seqs[n] with held := none } s
  | .chain => s
  | .coupling => mapCc (fun c => { c with heldSwitch := none }) s

/-- Replace the pending allocation queue; a change between empty and not hands UNIT_STATUS (R1, R14). -/
def setAllocQueue (qs : List AllocReq) (s : State) : State :=
  { s with
    store := { s.store with queue := qs }
    work := { s.work with turned := s.work.turned || (qs.isEmpty != s.store.queue.isEmpty) } }

/-- A result that makes no record and releases the one there is (R8, R9). -/
def resultReleases (s : State) : StepResult → Bool
  | .lamp ch cls _ => decide (cls = .noLoad) && !channelBound s.plan.active ch
  | .sensor i r => decide ((sensorEntry s i).cls = .unused) || decide (r = .unused)
  | .actuator o r => (actEntry s o).fn.isNone && decide (r = .noLoad)

/-- The held result of a request is one that, judged at this moment, releases its subject's record (R4, R8, R9, log
entry 17). -/
def heldReleases (s : State) (q : AllocReq) : Bool :=
  match q.requester with
  | .sq n => (s.probe.seqs[n].held).any (resultReleases s)
  | _ => false

/-- Complete a request that has left the queue (R12). -/
def completeReq (q : AllocReq) (s : State) : State :=
  dropHeld q.requester
    (if heldReleases s q then (liveTag s q.subject).elim s fun t => removeRec t s
    else writeContent q.subject (heldContent s q) s)

/-- Re-try the head of the queue, and each new head, for as long as each fits (R14). -/
def retryQueue : Nat → State → State
  | 0, s => s
  | k + 1, s =>
    match s.store.queue with
    | [] => s
    | q :: qs => if fits s q then retryQueue k (completeReq q (setAllocQueue qs s)) else s

/-- Re-try the pending allocation queue (R14). -/
def retry (s : State) : State := retryQueue s.store.queue.length s

/-- Release a record and re-try the queue (R18). -/
def releaseRec (t : Fin 40) (s : State) : State := retry (removeRec t s)

/-- Release the live record of a subject, if there is one. -/
def releaseSubject (j : Subject) (s : State) : State := (liveTag s j).elim s fun t => releaseRec t s

/-- Supersede a record and re-try the queue (R17). -/
def supersede (t : Fin 40) (c : Content) (s : State) : State := retry (supersedeRaw t c s)

/-- Withdraw the pending requests of some requesters; a withdrawn head re-tries the new one (R15). -/
def withdraw (who : Requester → Bool) (s : State) : State :=
  let qs := s.store.queue.filter fun q => !who q.requester
  let s' := setAllocQueue qs s
  if qs.head? = s.store.queue.head? then s' else retry s'

/-- A requester's allocation: completed at once when there is room and no request waits, else queued
(R11, R12). Answers whether it pends. -/
def requestAlloc (q : AllocReq) (mk : Option Content → Option Content) (s : State) : State × Bool :=
  if s.store.queue.isEmpty && hasRoom s q.cells then (writeContent q.subject mk s, false)
  else (setAllocQueue (s.store.queue ++ [q]) s, true)

/-! ## Applying a step result (R98, step 2) -/

/-- Cells of the shape a plan entry gives its subject (R9). -/
def entryCells (s : State) : Subject → Nat
  | .sensor i => if (sensorEntry s i).calib.isSome then 2 else 1
  | .actuator o => if (actEntry s o).link.isSome then 3 else 2
  | _ => 1

/-- Cells the record of a result has after it: the plan entry's at creation and at bring-up, else its own (R9). -/
def resultCells (s : State) (j : Subject) : Nat :=
  match liveRecord s j with
  | some (_, r) => if s.cc.bringUp then entryCells s j else r.content.cells
  | none => entryCells s j

/-- Subject of a step result. -/
def StepResult.subject : StepResult → Subject
  | .lamp ch _ _ => .lamp ch
  | .sensor i _ => .sensor i
  | .actuator o _ => .actuator o

/-- Turn a step result of a sequencer into a store operation; answers whether its allocation pends (R8, R9, R98). -/
def storeResult (n : Fin 4) (res : StepResult) (s : State) : State × Bool :=
  let j := res.subject
  if resultReleases s res then (releaseSubject j s, false)
  else
    let cells := resultCells s j
    let mk := fun old => some (resultContent s res cells old)
    let ask (replaces : Option (Fin 40)) := requestAlloc ⟨.sq n, j, cells, replaces⟩ mk s
    match liveRecord s j with
    | none => ask none
    | some (t, r) =>
      let c := resultContent s res cells (some r.content)
      if c.cells = r.content.cells then (updateRec t c (silentUpdate r.content c) s, false) else ask (some t)

/-- The chain block writes the UNIT record: in place, or by a request where none is live or pending (R10, R177). -/
def writeUnit (s : State) : State :=
  match liveTag s .unit with
  | some t => updateRec t (unitContent s) false s
  | none =>
    if isPending s .chain then s else (requestAlloc ⟨.chain, .unit, 1, none⟩ (fun _ => some (unitContent s)) s).1

/-- A live UNIT record in LINKED becomes LOST, its contents kept (R7, R176, R179). -/
def loseUnit (s : State) : State :=
  match liveRecord s .unit with
  | some (t, ⟨_, .unit r⟩) => updateRec t (.unit { r with linked := false }) false s
  | _ => s

/-- The lamp block mirrors a channel's fault state in its live record, with other fields as given (R140). -/
def mirrorLamp (ch : Fin 24) (f : LampRec → LampRec) (s : State) : State :=
  match liveRecord s (.lamp ch) with
  | some (t, ⟨_, .lamp _ r⟩) =>
    let r' := f r
    updateRec t (.lamp ch { r' with state := lampStateOf s.lamp.channels[ch].fault r'.loadClass }) false s
  | _ => s

/-- The lamp block takes a CLASSIFY result before the store (R98 step 1, R139). -/
def lampClassify (ch : Fin 24) (cls : LoadClass) (s : State) : State :=
  let f := s.lamp.channels[ch].fault
  if cls = .short then (if FaultState.latched f then s else setFault ch .short s)
  else setFault ch .normal s

/-- Apply a step result: the owning block first, then the store, then the arbiter's filters (R98, R115). -/
def applyResult (n : Fin 4) (res : StepResult) (s : State) : State × Bool :=
  match res with
  | .lamp ch cls _ =>
    let p := storeResult n res (lampClassify ch cls s)
    (watched s (rearbitrate p.1), p.2)
  | _ => storeResult n res s

end Sys2Proof.Machine
end

