-- ==== Sys2Proof/Machine/Sequencers.lean ====
section
/-! DEFINITION. The probe sequencers and the measurement source: how a step is taken, how it ends, loads and stops
(chapter 5). -/

namespace Sys2Proof.Machine

/-! ## Programs -/

/-- The channels bound in the active plan, ascending (R72). -/
def boundChannels (s : State) : List Nat :=
  ((List.finRange 24).filter (channelBound s.plan.active)).map (·.val)

/-- The channels that have a live LAMP record or are bound, ascending (R69). -/
def knownChannels (s : State) : List Nat :=
  ((List.finRange 24).filter fun ch => (lampRecord s ch).isSome || channelBound s.plan.active ch).map (·.val)

/-- A program of the coupling controller, in SWEEP or CYCLE mode; its demand condition, which no gate asks, is PARKED (R69,
R72, R85, log entry 45). -/
def controllerProgram (t : ProbeTarget) (list : List Nat) (k : StepKind) (m : ProbeMode) (period : Nat) : Program :=
  { target := t, list := list, kind := k, mode := m, demand := .parked, period := period, loaded := none }

/-- All subject numbers below a bound, ascending. -/
def allSubjects (n : Nat) : List Nat := List.range n

/-- The CYCLE VERIFY program of SQ0, period 10 s (R72). -/
def cycleVerify (s : State) : Program := controllerProgram .lamp (boundChannels s) .verify .cycle 10

/-- The CYCLE MEASURE program of SQ1, period 1 s (R72). -/
def cycleMeasure : Program := controllerProgram .sensor (allSubjects 10) .measure .cycle 1

/-- The list of a PROBE_RUN: count subjects from the first index, up or down (R85). -/
def runList (first count : Nat) : Direction → List Nat
  | .up => (List.range count).map (first + ·)
  | .down => (List.range count).map (first - ·)

/-! ## The step of a sequencer -/

/-- A subject number as a channel, input or output. -/
def asFin (n : Nat) (k : Nat) : Option (Fin n) := if h : k < n then some ⟨k, h⟩ else none

/-- The kind of the present step: an inserted step is a CLASSIFY (R84). -/
def stepKind (q : Sequencer) (p : Program) : StepKind := if q.inserted then .classify else p.kind

/-- The demand condition holds (R87). -/
def demandHolds (s : State) : DemandCond → Bool
  | .parked => parked s
  | .coupled => coupled s

/-- A gate closes a step by the mask or by the demand condition (R87). -/
def maskOrDemand (s : State) (q : Sequencer) (p : Program) : Bool :=
  q.mask || (decide (p.mode = .demand) && !demandHolds s p.demand)

/-- The gates of R87, step 1; `asked` says that a PROBE_STEP is waiting or the step is taken afresh. -/
def gateShut (s : State) (q : Sequencer) (p : Program) (asked : Bool) : Bool :=
  maskOrDemand s q p || (decide (p.mode = .step) && !asked && !q.inserted)

/-- How a step is to be taken (R87). -/
inductive Take where
  | nothing | pause | noRecord | skip | lit | source
  | instant (i : Fin 10) (r : SensorResult)
  deriving DecidableEq, Repr

/-- How a MEASURE is taken (R87 steps 3 and 5, R96). -/
def takeMeasure (s : State) (i : Fin 10) : Take :=
  match (sensorEntry s i).cls with
  | .unused => .instant i .unused
  | .resistive => .source
  | .switch =>
    match s.input.inputs[i].level with
    | .unknown => .skip
    | .closed => .instant i (.switch true)
    | .opened => .instant i (.switch false)

/-- How a lamp step is taken (R87 steps 3 to 5). -/
def takeLamp (s : State) (ch : Fin 24) (k : StepKind) : Take :=
  if k = .verify && (lampRecord s ch).isNone then .noRecord
  else if s.lamp.channels[ch].driven then .lit
  else .source

/-- How a CHECK is taken (R87 steps 2 and 5). -/
def takeCheck (s : State) (o : Fin 6) : Take := if running s o then .skip else .source

/-- How the step at a sequencer's index is taken (R87). -/
def howToTake (s : State) (q : Sequencer) (asked : Bool) : Take :=
  match q.program, q.index with
  | some p, some k =>
    if gateShut s q p asked then .pause
    else
      match p.target with
      | .lamp => (asFin 24 k).elim .nothing fun ch => takeLamp s ch (stepKind q p)
      | .sensor => (asFin 10 k).elim .nothing (takeMeasure s)
      | .actuator => (asFin 6 k).elim .nothing (takeCheck s)
  | _, _ => .nothing

/-- The lamp channel of the present step. -/
def lampOf (q : Sequencer) : Option (Fin 24) :=
  match q.program, q.index with
  | some p, some k => if p.target = .lamp then asFin 24 k else none
  | _, _ => none

/-- The sensor input of the present step. -/
def inputOf (q : Sequencer) : Option (Fin 10) :=
  match q.program, q.index with
  | some p, some k => if p.target = .sensor then asFin 10 k else none
  | _, _ => none

/-- The output of the present step. -/
def outputOf (q : Sequencer) : Option (Fin 6) :=
  match q.program, q.index with
  | some p, some k => if p.target = .actuator then asFin 6 k else none
  | _, _ => none

/-- The kind of the present step, if there is a program. -/
def kindOf (q : Sequencer) : Option StepKind := q.program.map (stepKind q)

/-! ## Moves of a sequencer -/

/-- Change a sequencer's status. -/
def setStatus (n : Fin 4) (st : SeqStatus) (s : State) : State :=
  setSeq n { s.probe.seqs[n] with status := st } s

/-- The sequencer releases the source if it holds it (R88, R90). -/
def releaseSource (n : Fin 4) (s : State) : State :=
  if s.probe.holder = some n then { s with probe := { s.probe with holder := none } } else s

/-- A VERIFY mismatch: the source is released and a CLASSIFY inserted at the same index (R88 step 2). -/
def insertClassify (n : Fin 4) (s : State) : State :=
  let s := releaseSource n s
  setSeq n { s.probe.seqs[n] with inserted := true } s

/-- Terminal count (R88 step 4). -/
def atTerminal (m : ProbeMode) (q : Sequencer) : Sequencer :=
  { q with
    index := none, remaining := 0, tc := true, inserted := false,
    status := if m = .cycle then .waitCycle else .done,
    cycleTimer := if m = .cycle then .running else q.cycleTimer }

/-- The next subject of the list (R88 step 3). -/
def atNext (p : Program) (q : Sequencer) : Sequencer :=
  { q with
    remaining := q.remaining - 1, inserted := false,
    index := p.list[p.list.length - (q.remaining - 1)]? }

/-- The end of a step that inserts nothing (R88); answers whether a next subject is to be reached. -/
def advance (n : Fin 4) (s : State) : State × Bool :=
  let s := releaseSource n s
  let q := s.probe.seqs[n]
  match q.program with
  | none => (s, false)
  | some p => if 1 < q.remaining then (setSeq n (atNext p q) s, true) else (setSeq n (atTerminal p.mode q) s, false)

/-- Hold a result whose allocation pends (R98 step 3). -/
def holdResult (n : Fin 4) (res : StepResult) (s : State) : State :=
  let s := releaseSource n s
  setSeq n { s.probe.seqs[n] with status := .waitStore, held := some res } s

/-- The sequencer reaches its index, and each next one while steps end at once (R87, R88). -/
def reachFuel : Nat → Fin 4 → Bool → State → State
  | 0, _, _, s => s
  | k + 1, n, asked, s =>
    let goOn (a : State × Bool) : State := if a.2 then reachFuel k n false a.1 else a.1
    match howToTake s s.probe.seqs[n] asked with
    | .nothing => s
    | .pause => setStatus n .pausedDemand s
    | .lit => setStatus n .waitLit s
    | .source => setStatus n .waitSource s
    | .noRecord => reachFuel k n asked (insertClassify n s)
    | .skip => goOn (advance n s)
    | .instant i r =>
      let p := applyResult n (.sensor i r) s
      if p.2 then holdResult n (.sensor i r) p.1 else goOn (advance n p.1)

/-- A sequencer reaches its index (R87). -/
def reach (n : Fin 4) (asked : Bool) (s : State) : State := reachFuel Config.chainFuel n asked s

/-- The end of a step without a result to hold (R88). -/
def finishStep (n : Fin 4) (s : State) : State :=
  let a := advance n s
  if a.2 then reach n false a.1 else a.1

/-- The end of a step with a result (R98, R88). -/
def endStep (n : Fin 4) (res : StepResult) (s : State) : State :=
  let p := applyResult n res s
  if p.2 then holdResult n res p.1 else finishStep n p.1

/-- The end of a VERIFY with a class: a match ends the step, a mismatch inserts a CLASSIFY (R93). -/
def endVerify (n : Fin 4) (ch : Fin 24) (cls : LoadClass) (s : State) : State :=
  if (lampRecord s ch).any fun r => decide (r.loadClass = cls) then finishStep n s
  else reach n false (insertClassify n s)

/-- A lit step of the sequencer ends with a class and band (R94). -/
def endLit (n : Fin 4) (ch : Fin 24) (cls : LoadClass) (band : Nat) (s : State) : State :=
  if kindOf s.probe.seqs[n] = some .verify then endVerify n ch cls s else endStep n (.lamp ch cls band) s

/-- The sequencer waits for an ON-sample of the channel. -/
def waitsLit (s : State) (ch : Fin 24) (n : Fin 4) : Bool :=
  decide (s.probe.seqs[n].status = .waitLit) && decide (lampOf s.probe.seqs[n] = some ch)

/-- Every lit step waiting on the channel ends, in ascending sequencer number (R131, R137). -/
def endLitSteps (ch : Fin 24) (cls : LoadClass) (band : Nat) (s : State) : State :=
  forEach ((List.finRange 4).filter (waitsLit s ch)) (fun n => endLit n ch cls band) s

/-! ## Loads and stops -/

/-- Empty a sequencer, without the store (R102). -/
def clearSeq (n : Fin 4) (s : State) : State := setSeq n Sequencer.idle (releaseSource n s)

/-- A bring-up sequencer leaves its program: the bring-up is abandoned (R73). -/
def abandonIf (leaves : Bool) (s : State) : State :=
  if leaves then mapCc (fun c => { c with bringUp := false }) s else s

/-- A requester is one of some sequencers. -/
def isOneOf (ns : List (Fin 4)) : Requester → Bool
  | .sq n => ns.contains n
  | _ => false

/-- Stop some sequencers in one event, each with the effect of PROBE_STOP; their requests are withdrawn together (R62,
R102, R104, log entry 19). -/
def stopAll (ns : List (Fin 4)) (s : State) : State :=
  let leaves := ns.any fun n => decide (s.probe.seqs[n].origin = .bringUp)
  abandonIf leaves (withdraw (isOneOf ns) (forEach ns clearSeq s))

/-- Stop a sequencer (R102, R104). -/
def stopSeq (n : Fin 4) (s : State) : State := stopAll [n] s

/-- Stop every sequencer that meets a condition. -/
def stopWhere (p : Sequencer → Bool) (s : State) : State :=
  stopAll ((List.finRange 4).filter fun n => p s.probe.seqs[n]) s

/-- The target of a sequencer's program is LAMP (R74, R104). -/
def isLampSeq (q : Sequencer) : Bool := q.program.any fun p => decide (p.target = .lamp)

/-- A sequencer with a program loaded, before it reaches its first index; every load clears the TC, mask and inserted
marks (R99, R104, log entry 46). -/
def loadedSeq (p : Program) (o : Origin) : Sequencer :=
  match p.list with
  | [] => { Sequencer.idle with program := some p, origin := o, status := .done, tc := true }
  | k :: ks =>
    { Sequencer.idle with
      program := some p, origin := o, status := .stepping, index := some k, remaining := ks.length + 1 }

/-- Load a program: the sequencer leaves what it had and reaches its first index (R99, R104). -/
def loadSeq (n : Fin 4) (p : Program) (o : Origin) (s : State) : State :=
  reach n false (setSeq n (loadedSeq p o) (stopSeq n s))

/-- Load SQ0 with the verify cycle, or leave it IDLE where no channel is bound (R72, R104). -/
def loadVerifyCycle (s : State) : State :=
  if (boundChannels s).isEmpty then stopSeq 0 s else loadSeq 0 (cycleVerify s) .cycle s

/-- A CHECK of an output that holds the source is abandoned and skipped (R97). -/
def skipCheck (o : Fin 6) (s : State) : State :=
  match s.probe.holder with
  | some n => if outputOf s.probe.seqs[n] = some o then finishStep n s else s
  | none => s

end Sys2Proof.Machine
end

