-- ==== Sys2Proof/Machine/Chain.lean ====
section
/-! DEFINITION. The train chain: sensing, feeding, linking, numbering, loss, the forward queues (chapter 10). -/

namespace Sys2Proof.Machine

/-! ## Ports -/

/-- A frame on the wire whose forward queue was emptied (log entry 29). -/
def orphaned : Option Sending → Option Sending
  | some (.forward f) => some (.orphan f)
  | x => x

/-- Empty the downstream forward queue, its frames discarded without reply (R175). -/
def emptyDown (s : State) : State :=
  let s := setLine .rear { line s .rear with sending := orphaned (line s .rear).sending } s
  mapChain (fun c => { c with down := [] }) s

/-- Empty the upstream forward queue (R176). -/
def emptyUp (s : State) : State :=
  let s := setLine .front { line s .front with sending := orphaned (line s .front).sending } s
  mapChain (fun c => { c with up := [] }) s

/-- A frame from FRONT joins the downstream forward queue while the state is LINKED and there is room (R181). -/
def joinDown (f : FwdFrame) (s : State) : State :=
  if s.chain.rear = .linked && s.chain.down.length < Config.forwardDepth then
    mapChain (fun c => { c with down := c.down ++ [f] }) s
  else s

/-- A frame from REAR joins the upstream forward queue, or is discarded with UP_OVERRUN (R182). -/
def joinUp (f : FwdFrame) (s : State) : State :=
  mapChain
    (fun c =>
      if c.up.length < Config.forwardDepth then { c with up := c.up ++ [f] } else { c with upOverrun := true }) s

/-- A frame no longer closes a request: its port has been detached (R186). -/
def openFrame (f : OutFrame) : OutFrame := { f with closes := false }

/-- A frame on the wire no longer closes a request. -/
def openSending : Option Sending → Option Sending
  | some (.own f) => some (.own (openFrame f))
  | x => x

/-- Detach a master's port: timer stopped, outstanding mark clear, PENDING_SENT clear (R186, R29). -/
def detach (m : Master) (s : State) : State :=
  let l := line s (masterPort m)
  let s := setLine (masterPort m) { l with waiting := l.waiting.map openFrame, sending := openSending l.sending } s
  setQueue m { queueOf s m with pendingSent := false } (setStation m ⟨false, .stopped, false⟩ s)

/-! ## REAR states -/

/-- REAR_FEED goes off: hello and silence timers stopped, the downstream queue emptied (R175, R176). -/
def feedOff (s : State) : State :=
  emptyDown (mapChain (fun c => { c with helloTimer := .stopped, silence := .stopped }) s)

/-- The state becomes BARRED with a cause. -/
def bar (b : BarCause) (s : State) : State := mapChain (fun c => { c with rear := .barred, bar := b }) s

/-- REAR_SENSE asserted in VACANT (R175). -/
def senseRear (s : State) : State :=
  if s.chain.rear = .vacant then
    let s := mapChain (fun c => { c with feedTry := true, rear := .sensed }) s
    if s.chain.own = 4 then bar .number s else s
  else s

/-- REAR_SENSE negated in a state other than VACANT (R175). -/
def loseRear (s : State) : State :=
  if s.chain.rear = .vacant then s
  else
    let s := feedOff s
    let s := mapChain (fun c => { c with assignOut := false, assigned := 0, report := none, rear := .vacant, bar := .none }) s
    let s := withdraw (fun r => decide (r = .chain)) (releaseSubject .unit s)
    mapCauses (fun c => { c with chainLost := false }) s

/-- PARTING entry, or PROBING entry by REPROBE, in FEEDING, LINKED or LOST (R176). -/
def suspendFeed (s : State) : State :=
  if rearFeed s then
    loseUnit (mapChain (fun c => { c with assignOut := false, rear := .sensed }) (feedOff s))
  else s

/-- The cut-out of the REAR_FEED switch (R175). -/
def overcurrent (s : State) : State :=
  if rearFeed s then loseUnit (bar .overcurrent (feedOff s)) else s

/-- The conditions for entry to FEEDING hold (R175). -/
def mayFeed (s : State) : Bool :=
  decide (s.chain.rear = .sensed) && decide (s.cc.state = .serving) && decide (1 ≤ s.chain.own) &&
    decide (s.chain.own ≤ 3) && s.chain.feedTry

/-- Entry to FEEDING (R175). -/
def enterFeeding (s : State) : State := mapChain (fun c => { c with rear := .feeding, helloTimer := .running }) s

/-- The own number becomes 0: the repeats stop and the upstream queue is emptied (R66, R76, R176, R180). -/
def clearNumber (s : State) : State :=
  emptyUp (mapChain (fun c => { c with own := 0, helloRepeat := .stopped, summaryRepeat := .stopped }) s)

/-! ## Linking (R177) -/

/-- The neighbour report of a HELLO or adjacent SUMMARY, a units-behind value above 2 taken as 2 (R174, R182). -/
def capReport (r : Report) : Report := { r with unitsBehind := min 2 r.unitsBehind }

/-- A live UNIT record takes the contents the chain block holds; none is requested. -/
def updateUnit (s : State) : State := (liveTag s .unit).elim s fun t => updateRec t (unitContent s) false s

/-- A HELLO taken in FEEDING or LOST (R177). -/
def linkNeighbour (r : Report) (s : State) : State :=
  let s := mapChain (fun c => { c with helloTimer := .stopped, report := some (capReport r) }) s
  writeUnit (mapChain (fun c => { c with rear := .linked, silence := .running }) (sendAssign s))

/-- A HELLO taken in LINKED (R177). -/
def relinkNeighbour (r : Report) (s : State) : State :=
  let s := mapChain (fun c => { c with report := some (capReport r), silence := .running }) s
  updateUnit (sendAssign s)

/-- A HELLO well formed on REAR (R177). -/
def takeHello (r : Report) (s : State) : State :=
  match s.chain.rear with
  | .feeding => linkNeighbour r s
  | .lost => linkNeighbour r s
  | .linked => relinkNeighbour r s
  | _ => s

/-- Every well-formed frame on REAR restarts the silence timer in LINKED (R179). -/
def rearHeard (s : State) : State :=
  if s.chain.rear = .linked then mapChain (fun c => { c with silence := .running }) s else s

/-- Frames other than HELLO are taken in LINKED and LOST (R182). -/
def rearTakes (s : State) : Bool := decide (s.chain.rear = .linked) || decide (s.chain.rear = .lost)

/-- The answer to this unit's UNIT_ASSIGN (R177). -/
def takeAssignReply (r : Result) (s : State) : State :=
  if rearTakes s && decide (r = .done) then mapChain (fun c => { c with assignOut := false }) s else s

/-- The adjacent unit's SUMMARY: the report and the UNIT record (R182). -/
def takeAdjacent (r : Report) (s : State) : State :=
  let s := mapChain (fun c => { c with report := some (capReport r) }) s
  if s.chain.rear = .linked then writeUnit s else updateUnit s

/-- A SUMMARY from REAR, passed up as `f` (R177, R182). -/
def takeSummary (src : Nat) (r : Report) (f : FwdFrame) (s : State) : State :=
  if rearTakes s then
    let s := joinUp f s
    let s := if src = s.chain.own + 1 then takeAdjacent r s else s
    if s.chain.rear = .linked && s.chain.assignOut then sendAssign s else s
  else s

/-- Another REPLY or a NOTICE from REAR, passed up (R182). -/
def passUp (f : FwdFrame) (s : State) : State := if rearTakes s then joinUp f s else s

/-- The REAR silence timer expires in LINKED (R179). -/
def loseNeighbour (s : State) : State :=
  let s := mapChain (fun c => { c with rear := .lost, silence := .stopped }) s
  mapCauses (fun c => { c with chainLost := true }) (loseUnit s)

/-! ## Numbering (R178) -/

/-- A live UNIT record takes the downstream number just assigned. -/
def renumberUnit (s : State) : State :=
  match liveRecord s .unit with
  | some (t, ⟨_, .unit r⟩) => updateRec t (.unit { r with number := s.chain.assigned }) false s
  | _ => s

/-- The REAR state after a new number 4 (R178). -/
def barForNumber (s : State) : State :=
  match s.chain.rear with
  | .sensed => bar .number s
  | .feeding => bar .number (feedOff s)
  | .lost => bar .number (feedOff s)
  | .linked => loseUnit (bar .number (feedOff s))
  | _ => s

/-- The REAR state after a new number 1 to 3 (R178). -/
def renumberRear (s : State) : State :=
  match s.chain.rear with
  | .linked => renumberUnit (sendAssign s)
  | .barred =>
    if s.chain.bar = .number then mapChain (fun c => { c with rear := .sensed, bar := .none }) s else s
  | _ => s

/-- An accepted UNIT_ASSIGN (R178). -/
def takeNumber (n : Nat) (s : State) : State :=
  let s := mapChain (fun c => { c with helloRepeat := .stopped }) s
  if n = s.chain.own then s
  else
    let s := mapChain (fun c => { c with own := n }) s
    if n = 4 then barForNumber s else renumberRear s

/-- A frame of this unit waiting on REAR that R183 drops. -/
def rearDrops (s : State) (f : OutFrame) : Bool :=
  (decide (s.chain.rear ≠ .linked) && (decide (f.code = codePhase) || decide (f.code = codeUnitAssign))) ||
    (decide (s.chain.own = 4) && decide (f.code = codeUnitAssign))

/-- Drop the PHASE and UNIT_ASSIGN frames that R183 drops before they are sent. -/
def purgeRear (s : State) : State :=
  setLine .rear { line s .rear with waiting := (line s .rear).waiting.filter fun f => !rearDrops s f } s

end Sys2Proof.Machine
end

