-- ==== Sys2Proof/Machine/Coupling.lean ====
section
/-! DEFINITION. The coupling controller: its states, bring-up, parting, and the load of the active plan
(chapters 3 and 4). -/

namespace Sys2Proof.Machine

/-! ## Plan load (R46, R47) -/

/-- The plan a load places: the stored plan with PLANSEL high and a valid stored plan, else the built-in plan. -/
def planToLoad (s : State) : Plan := if s.lines.planSel then (validPlan s).getD Config.builtInPlan else Config.builtInPlan

/-- PLAN_FALLBACK after a load (R46). -/
def fallbackAtLoad (s : State) : Bool := s.lines.planSel && (validPlan s).isNone

/-- The active plan is replaced (R46, R47 step 1). -/
def placePlan (s : State) : State :=
  mapCauses (fun c => { c with planFallback := fallbackAtLoad s })
    { s with plan := { s.plan with active := planToLoad s } }

/-- One live LAMP record is brought into line with the new bindings (R47 step 2). -/
def bindLamp (t : Fin 40) (s : State) : State :=
  match s.store.records[t] with
  | some ⟨_, .lamp ch r⟩ =>
    let b := channelBound s.plan.active ch
    if r.loadClass = .noLoad && !b then releaseRec t s
    else updateRec t (.lamp ch { r with bound := channelFns s.plan.active ch, unassigned := !b }) false s
  | _ => s

/-- A load of the active plan with its effects on the neighbouring blocks (R47, R147, R166, R43); the function levels,
with the homings they bring, come before the runs are judged (log entry 47). -/
def loadPlan (s : State) : State :=
  let old := s.plan.active
  let s := reclassInputs old (placePlan s)
  let s := rearbitrate (forEach (List.finRange 40) bindLamp s)
  judgeRuns (senseScan s)

/-! ## Battery states -/

/-- Entry to QUIET (R62, R77, R155). -/
def enterQuiet (s : State) : State :=
  let s := changeCoupling (mapCc fun c => { c with state := .quiet, motion := .parked }) s
  stopWhere (fun q => decide (q.status ≠ .idle)) (takeSnapshot s)

/-- Entry to LOCAL (R64, R77). -/
def enterLocal (s : State) : State :=
  changeCoupling (mapCc fun c => { c with state := .localAwake, motion := .parked }) s

/-- Restart the idle timer (R63). -/
def restartIdle (s : State) : State := mapCc (fun c => { c with idleExpired := false }) s

/-- A wake from QUIET to LOCAL (R62, R63). -/
def wake (s : State) : State := if s.cc.state = .quiet then restartIdle (enterLocal s) else s

/-- Entry to MATING from QUIET or LOCAL (R65). -/
def enterMating (s : State) : State :=
  changeCoupling
    (fun s =>
      mapCc
        (fun c =>
          { c with
            state := .mating, motion := .unknown, debounceDone := false,
            debounce := if s.lines.cplPresent then .running else .stopped }) s) s

/-- The return from MATING to a battery state (R66, R186). -/
def returnToBattery (s : State) : State :=
  let s := mapCc (fun c => { c with debounce := .stopped, debounceDone := false }) s
  let s := clearNumber (dropHolds .front .silence (detach .front s))
  if localConditions s then enterLocal s else enterQuiet s

/-! ## Bring-up -/

/-- Where PROBING is entered from (R68). -/
inductive ProbingFrom where
  | mating | reprobe | restart
  deriving DecidableEq, Repr

/-- The reprobe mark after an entry to PROBING (R68 step 1). -/
def reprobeMark (w : ProbingFrom) (old : Bool) : Bool :=
  match w with
  | .mating => false
  | .reprobe => true
  | .restart => old

/-- The fast path is chosen (R69). -/
def fastPath (s : State) : Bool :=
  decide (s.cc.inventoryIdent = s.plan.active.ident) && decide (s.cc.inventoryIdent ≠ 0) &&
    decide (0 < liveCount s.store)

/-- SQ0's bring-up program (R69). -/
def bringUpLamps (s : State) : Program :=
  if fastPath s then controllerProgram .lamp (knownChannels s) .verify .sweep 1
  else controllerProgram .lamp (allSubjects 24) .classify .sweep 1

/-- SQ1's bring-up program (R69). -/
def bringUpSensors : Program := controllerProgram .sensor (allSubjects 10) .measure .sweep 1

/-- SQ2's bring-up program (R69). -/
def bringUpOutputs : Program := controllerProgram .actuator (allSubjects 6) .check .sweep 1

/-- A requester is one of the bring-up sequencers. -/
def isBringUpSeq : Requester → Bool
  | .sq n => decide (n.val < 3)
  | _ => false

/-- The bring-up program is loaded into SQ0, SQ1 and SQ2 (R69, R104). -/
def loadBringUp (s : State) : State :=
  let s := withdraw isBringUpSeq (clearSeq 2 (clearSeq 1 (clearSeq 0 s)))
  let s := mapCc (fun c => { c with bringUp := true }) s
  let p := bringUpLamps s
  loadSeq 2 bringUpOutputs .bringUp (loadSeq 1 bringUpSensors .bringUp (loadSeq 0 p .bringUp s))

/-- Step 5 of R68: the fallback claims and, with own number 0, the HELLO (R70, R180). -/
def greetFront (s : State) : State :=
  let s := rearbitrate (placeFallback s)
  if s.chain.own = 0 then mapChain (fun c => { c with helloRepeat := .running }) (sendHello (reconcile s)) else s

/-- Step 1 of R68. -/
def probingState (w : ProbingFrom) (s : State) : State :=
  mapCc
    (fun c =>
      { c with
        state := .probing, causes := { c.causes with timeout := false }, storeTrouble := false,
        reprobe := reprobeMark w c.reprobe, debounce := .stopped, debounceDone := false,
        partingHold := .stopped, origin := .none }) s

/-- Entry to PROBING (R68). At a REPROBE the feed is suspended (R176) after step 1 and before the load, which no rule
orders (DESIGN CHOICE, log entry 52). -/
def enterProbing (w : ProbingFrom) (s : State) : State :=
  let s := changeCoupling (probingState w) s
  let s := if w = .reprobe then suspendFeed s else s
  let s := loadBringUp (loadPlan s)
  let s := mapCc (fun c => { c with deadline := .running }) s
  if w = .mating then greetFront s else s

/-- A sequencer stands at terminal count of the bring-up program with no inserted step and nothing pending. -/
def seqComplete (q : Sequencer) : Bool :=
  decide (q.origin = .bringUp) && q.tc && !q.inserted && decide (q.status = .done)

/-- The bring-up program completes (R72). -/
def bringUpComplete (s : State) : Bool :=
  s.cc.bringUp && seqComplete s.probe.seqs[0] && seqComplete s.probe.seqs[1] && seqComplete s.probe.seqs[2]

/-- The coupling controller at the completion: idents and causes (R72 steps 1 to 3). -/
def completedCc (ident : Nat) (c : Coupling) : Coupling :=
  { c with
    inventoryIdent := ident, bringUp := false,
    causes := { c.causes with timeout := false, store := c.causes.store && c.storeTrouble } }

/-- The completion of the bring-up program (R72); the running mark is clear when the cycles are loaded (log entry 44). -/
def completeBringUp (s : State) : State :=
  let s := mapCc (completedCc s.plan.active.ident) s
  let s := clearSeq 2 (loadSeq 1 cycleMeasure .cycle (loadVerifyCycle s))
  let s :=
    if s.cc.state = .probing then changeCoupling (mapCc fun c => { c with state := .serving, deadline := .stopped }) s
    else s
  if s.cc.reprobe then
    mapCc (fun c => { c with reprobe := false }) (mapChain (fun c => { c with feedTry := true }) s)
  else s

/-- The deadline expires in PROBING (R71). -/
def deadlineExpires (s : State) : State :=
  let trouble := !s.store.queue.isEmpty
  changeCoupling
    (mapCc fun c =>
      { c with
        state := .serving, deadline := .stopped, storeTrouble := c.storeTrouble || trouble,
        causes := { c.causes with timeout := true, store := c.causes.store || trouble } }) s

/-- A NO_ROOM refusal given to a master in PROBING (R13, R80). -/
def noteNoRoom (s : State) : State :=
  if s.cc.state = .probing then
    mapCc (fun c => { c with storeTrouble := true, causes := { c.causes with store := true } }) s
  else s

/-! ## Parting -/

/-- The parting origin of a state (R59). -/
def originOf : CouplingState → PartingOrigin
  | .serving => .serving
  | .probing => .probing
  | _ => .none

/-- Entry to PARTING (R74). The feed is suspended (R176) after the LAMP sequencers have stopped and their requests have been
withdrawn, which no rule orders (DESIGN CHOICE, log entry 56). -/
def enterParting (s : State) : State :=
  let cycling := decide (s.probe.seqs[0].origin = .cycle)
  let s :=
    changeCoupling
      (mapCc fun c =>
        { c with
          state := .parting, origin := originOf c.state, partingHold := .running, deadline := .stopped,
          cycleRestore := c.cycleRestore || cycling }) s
  suspendFeed (stopWhere isLampSeq s)

/-- The return within the hold to SERVING (R75). -/
def resumeServing (s : State) : State :=
  let s :=
    changeCoupling (mapCc fun c => { c with state := .serving, partingHold := .stopped, origin := .none }) s
  if s.cc.cycleRestore then loadVerifyCycle (mapCc (fun c => { c with cycleRestore := false }) s) else s

/-- The return within the hold (R75). -/
def returnFromParting (s : State) : State :=
  if s.cc.origin = .probing then enterProbing .restart s else resumeServing s

/-- A SENSOR record becomes STALE (R153). One that is STALE already is not updated again (DESIGN CHOICE, log entry 55). -/
def staleRec (t : Fin 40) (s : State) : State :=
  match s.store.records[t] with
  | some ⟨_, .sensor i r⟩ => putContent t (.sensor i { r with state := .stale }) false s
  | _ => s

/-- Each live SENSOR record becomes STALE, and the function levels are derived once (R153). -/
def staleSensors (s : State) : State := senseScan (forEach (List.finRange 40) staleRec s)

/-- The arbiter's part of the teardown (R76 step 1, R128). -/
def dropFrontClaims (s : State) : State :=
  let s := clearClaims .unit (clearClaims .front s)
  rearbitrate { s with arb := { s.arb with frontSilent := false } }

/-- The teardown and the entry to LOCAL (R76 steps 1 to 6). -/
def teardown (s : State) : State :=
  let s := dropHolds .front .parting (dropFrontClaims s)
  let s := staleSensors (clearNumber (stopWhere isLampSeq s))
  let s :=
    changeCoupling
      (mapCc fun c =>
        { c with
          state := .localAwake, motion := .parked, origin := .none, cycleRestore := false,
          partingHold := .stopped, idleExpired := false }) s
  detach .front s

/-- The FRONT queue after the teardown's appends (R76 step 7, R36). -/
def resetFrontQueue (s : State) : State :=
  setQueue .front ⟨[], ⟨true, true, true, true, true⟩, false, false⟩ s

end Sys2Proof.Machine
end

