-- ==== Sys2Proof/Machine/Events.lean ====
section
/-! DEFINITION. What one event runs through after its own effect: the reactions of the blocks until none is left,
and then the appends, notices and SUMMARY of the event (log entries 11 and 14). -/

namespace Sys2Proof.Machine

/-! ## Reactions -/

/-- A reaction of a block to the state it finds. -/
inductive Reaction where
  | storeDone (n : Fin 4)
  | relit (n : Fin 4)
  | convert (n : Fin 4)
  | skipCheck (n : Fin 4)
  | gateCloses (n : Fin 4)
  | gateOpens (n : Fin 4)
  | grant (n : Fin 4)
  | complete
  | quiet
  | feed
  deriving DecidableEq, Repr

/-- A held result's allocation has completed: the step ends (R98). -/
def storeDoneNow (s : State) (n : Fin 4) : Bool :=
  decide (s.probe.seqs[n].status = .waitStore) && s.probe.seqs[n].held.isNone

/-- The channel of the present lamp step is driven, or not. -/
def stepDriven (s : State) (n : Fin 4) (d : Bool) : Bool :=
  (lampOf s.probe.seqs[n]).any fun ch => decide (s.lamp.channels[ch].driven = d)

/-- A lit step's channel has ceased to be driven (R94). -/
def relitNow (s : State) (n : Fin 4) : Bool :=
  decide (s.probe.seqs[n].status = .waitLit) && stepDriven s n false

/-- A step waits for the source, or holds it. -/
def needsSource (s : State) (n : Fin 4) : Bool :=
  decide (s.probe.seqs[n].status = .waitSource) || decide (s.probe.holder = some n)

/-- A dark lamp step's channel has become driven (R95). -/
def convertNow (s : State) (n : Fin 4) : Bool := needsSource s n && stepDriven s n true

/-- A CHECK holds the source for a running output (R97). -/
def skipCheckNow (s : State) (n : Fin 4) : Bool :=
  decide (s.probe.holder = some n) && (outputOf s.probe.seqs[n]).any (running s)

/-- The gate of a waiting sequencer has closed (R87). -/
def gateClosesNow (s : State) (n : Fin 4) : Bool :=
  decide (s.probe.seqs[n].status = .waitSource) &&
    s.probe.seqs[n].program.any (maskOrDemand s s.probe.seqs[n])

/-- The last reason that held a sequencer in PAUSED_DEMAND has ended; a STEP program wants a PROBE_STEP again (R87, log
entry 40). -/
def gateOpensNow (s : State) (n : Fin 4) : Bool :=
  decide (s.probe.seqs[n].status = .pausedDemand) &&
    s.probe.seqs[n].program.any fun p => !gateShut s s.probe.seqs[n] p false

/-- The sequencers waiting for the source (R90). -/
def waiters (s : State) : List (Fin 4) :=
  (List.finRange 4).filter fun n => decide (s.probe.seqs[n].status = .waitSource)

/-- The order in which the arbiter takes the waiters (R90). -/
def grantOrder (s : State) : List (Fin 4) :=
  match s.probe.mode with
  | .fixed => List.finRange 4
  | .rotating => (List.finRange 4).map fun k => s.probe.last + 1 + k

/-- The waiter to be granted, when the source is free (R90). -/
def toGrant (s : State) : Option (Fin 4) :=
  if s.probe.holder.isSome then none else (grantOrder s).find? fun n => (waiters s).contains n

/-- The first sequencer that meets a condition. -/
def firstSeq (p : Fin 4 → Bool) : Option (Fin 4) := (List.finRange 4).find? p

/-- The grant of the source (R90). -/
def grantTo (n : Fin 4) (s : State) : State :=
  setStatus n .stepping { s with probe := { s.probe with holder := some n, last := n } }

/-- The next reaction, in the order of log entry 14. -/
def nextReaction (s : State) : Option Reaction :=
  ((firstSeq (storeDoneNow s)).map .storeDone) <|>
  ((firstSeq (relitNow s)).map .relit) <|>
  ((firstSeq (convertNow s)).map .convert) <|>
  ((firstSeq (skipCheckNow s)).map .skipCheck) <|>
  ((firstSeq (gateClosesNow s)).map .gateCloses) <|>
  ((firstSeq (gateOpensNow s)).map .gateOpens) <|>
  ((toGrant s).map .grant) <|>
  (if bringUpComplete s then some .complete else none) <|>
  (if s.cc.state = .localAwake && !localConditions s then some .quiet else none) <|>
  (if mayFeed s then some .feed else none)

/-- A reaction's effect. -/
def runReaction : Reaction → State → State
  | .storeDone n, s => finishStep n s
  | .relit n, s => reach n true s
  | .convert n, s => setStatus n .waitLit (releaseSource n s)
  | .skipCheck n, s => finishStep n s
  | .gateCloses n, s => setStatus n .pausedDemand s
  | .gateOpens n, s => reach n false s
  | .grant n, s => grantTo n s
  | .complete, s => completeBringUp s
  | .quiet, s => enterQuiet s
  | .feed, s => enterFeeding s

/-- Run the reactions until none is left, each watched for a change of the unit status. -/
def react : Nat → State → State
  | 0, s => s
  | k + 1, s =>
    match nextReaction s with
    | none => s
    | some r => react k (watched s (runReaction r s))

/-! ## The end of an event -/

/-- The tags handed in this event, in ascending order, are offered to the queues (R25). -/
def offerHanded (s : State) : State :=
  forEach ((List.finRange 40).filter fun t => s.work.handed.contains t) (fun t => offer (.tag t)) s

/-- A field of the unit status changed in this event: from its start to its end, at a step of it (`watched`), or by the
pending count going from 0 to another value or back to 0 (R1, R26). -/
def statusMoved (old s : State) : Bool :=
  s.work.turned || s.work.statusTurned || decide (statusView s ≠ statusView old)

/-- UNIT_STATUS is offered at a change of the unit status (R25, R26). -/
def offerStatus (old s : State) : State := if statusMoved old s then offer .unitStatus s else s

/-- An event for which SUMMARY is sent: a change it tells of, from start to end or at a step, or of the own number (R180). -/
def summaryDue (old s : State) : Bool :=
  decide (s.chain.own ≠ 0) &&
    (s.work.summaryTurned || decide (summaryView s ≠ summaryView old) || decide (s.chain.own ≠ old.chain.own))

/-- The end of an event that began at `old`: reconciliation, appends, NOTICE_PENDING, SUMMARY (log entry 11). -/
def settle (old s : State) : State :=
  let s := offerStatus old (offerHanded (reconcile (purgeRear s)))
  let s := forEach masters noticeCheck s
  let s := if summaryDue old s then sendSummary s else s
  { s with work := ⟨[], false, false, false⟩ }

/-- One event of a powered part: its own effect, the reactions, and its end; an unpowered part takes none (R60). -/
def event (f : State → State) (s : State) : State :=
  if s.powered then settle s (react Config.reactFuel (f s)) else s

end Sys2Proof.Machine
end

