-- ==== Sys2Proof/Machine/Operands.lean ====
section
/-! DEFINITION. The arguments of requests: how a body's bytes spell a request (R188), and the range checks the
requests' own rules make (R50, R99, R109, R154). -/

namespace Sys2Proof.Machine

/-! ## From a body to a request -/

/-- What a body spells for the request its code names. -/
inductive Decoded where
  /-- Its length is not the request's (R188 step 4). -/
  | badLength
  /-- An argument stands for none of the request's names: the request's own rule answers BAD_ARG. -/
  | badArgument
  /-- A REC_EDIT that names a tag and a field no record kind can edit. -/
  | editOther (tag : Nat)
  /-- A PLAN_WRITE whose contents are of no entry kind. -/
  | writeOther
  | request (c : Instr)
  deriving DecidableEq, Repr

/-- A body without arguments. -/
def noArgs (c : Instr) : List Byte → Decoded
  | [] => .request c
  | _ => .badLength

/-- A body of one byte. -/
def oneArg (f : Byte → Instr) : List Byte → Decoded
  | [a] => .request (f a)
  | _ => .badLength

/-- A body of two bytes. -/
def twoArgs (f : Byte → Byte → Instr) : List Byte → Decoded
  | [a, b] => .request (f a b)
  | _ => .badLength

/-- The ACT_MOVE body: output, form, position in two bytes (R167, R188). -/
def moveArgs (h : ReqHdr) : List Byte → Decoded
  | [o, f, hi, lo] =>
    match Config.moveFormOf f with
    | some .directionA => .request (.actMoveDirection h o.toNat .a)
    | some .directionB => .request (.actMoveDirection h o.toNat .b)
    | some .target => .request (.actMoveTarget h o.toNat (wordOf hi lo))
    | some .energise => .request (.actMoveEnergise h o.toNat)
    | none => .badArgument
  | _ => .badLength

/-- The REC_EDIT body: tag, edit, and the four calibration values in two bytes each (R141, R154, R188, log entry 9). -/
def editArgs (h : ReqHdr) : List Byte → Decoded
  | [t, f, o, o', p, p', l, l', u, u'] =>
    match Config.editFormOf f with
    | .maskSet => .request (.recEditOpenMask h t.toNat true)
    | .maskClear => .request (.recEditOpenMask h t.toNat false)
    | .calibSet => .request (.recEditCalibration h t.toNat (some ⟨wordOf o o', wordOf p p', wordOf l l', wordOf u u'⟩))
    | .calibRemove => .request (.recEditCalibration h t.toNat none)
    | .other => .editOther t.toNat
  | _ => .badLength

/-! ### The PLAN_WRITE body (R39 to R41, R50, R188, log entry 9) -/

/-- Length of a PLAN_WRITE body: index, entry kind, and the fields of a lamp, a sensor and an actuator entry. -/
def planWriteLength : Nat := 34

/-- Byte `k` of a body. -/
def byteAt (bs : List Byte) (k : Nat) : Byte := bs.getD k 0

/-- The number in bytes `k` and `k + 1` of a body, high byte first (R188). -/
def wordAt (bs : List Byte) (k : Nat) : Nat := wordOf (byteAt bs k) (byteAt bs (k + 1))

/-- A function code, 0xFF standing for none (11.9). -/
def fnArg (b : Byte) : Option Nat := if b = 0xFF#8 then none else some b.toNat

/-- A binding: function and level; its place is unused where the function is none. -/
def bindingArg (bs : List Byte) (k : Nat) : Option Binding :=
  (fnArg (byteAt bs k)).map fun f => ⟨f, (byteAt bs (k + 1)).toNat⟩

/-- Lamp entry: two bindings, open mask default, expected class. -/
def lampArg (bs : List Byte) : Option LampEntry :=
  match Config.flagOf (byteAt bs 6), Config.expectedOf (byteAt bs 7) with
  | some m, some x => some ⟨[2, 4].filterMap (bindingArg bs), m, x⟩
  | _, _ => none

/-- Calibration part: offset, span, low and high threshold; absent where the offset's bytes say so. -/
def calibArg (bs : List Byte) (k : Nat) : Option Calib :=
  if 3000 < wordAt bs k && decide (wordAt bs k = Config.noCalib.toNat) then none
  else some ⟨wordAt bs k, wordAt bs (k + 2), wordAt bs (k + 4), wordAt bs (k + 6)⟩

/-- Sensor entry: class, function, wake flag, calibration part. -/
def sensorArg (bs : List Byte) : Option SensorEntry :=
  match Config.sensorClassOf (byteAt bs 8), Config.flagOf (byteAt bs 10) with
  | some c, some w => some ⟨c, fnArg (byteAt bs 9), w, calibArg bs 11⟩
  | _, _ => none

/-- Run limit; absent where the byte is no limit and says so. -/
def limitArg (b : Byte) : Option Nat :=
  if decide (b = Config.noLimit) && !(decide (1 ≤ b.toNat) && decide (b.toNat ≤ 250)) then none else some b.toNat

/-- Interlock: type and function; `none` for a type that names nothing, and no interlock for an unused place. -/
def lockArg (bs : List Byte) (k : Nat) : Option (Option Interlock) :=
  match Config.lockFormOf (byteAt bs k) with
  | .unused => some none
  | .parked => some (some .parked)
  | .coupled => some (some .coupled)
  | .uncoupled => some (some .uncoupled)
  | .senseOpened => some (some (.senseOpened (byteAt bs (k + 1)).toNat))
  | .senseClosed => some (some (.senseClosed (byteAt bs (k + 1)).toNat))
  | .other => none

/-- Position link: counter, home function, low and high limit; absent where the counter's byte is no counter and says
so. -/
def linkArg (bs : List Byte) (k : Nat) : Option PosLink :=
  if decide (byteAt bs k = Config.noLink) && decide (1 < (byteAt bs k).toNat) then none
  else some ⟨(byteAt bs k).toNat, (byteAt bs (k + 1)).toNat, wordAt bs (k + 2), wordAt bs (k + 4)⟩

/-- Actuator entry: class, function, run limit, three interlocks, position link. -/
def actArg (bs : List Byte) : Option ActEntry :=
  match Config.actClassOf (byteAt bs 19), lockArg bs 22, lockArg bs 24, lockArg bs 26 with
  | some c, some a, some b, some d =>
    some ⟨c, fnArg (byteAt bs 20), limitArg (byteAt bs 21), [a, b, d].filterMap id, linkArg bs 28⟩
  | _, _, _, _ => none

/-- The entry of the kind that a PLAN_WRITE body names; `none` where a name in it stands for nothing. -/
def entryArg (bs : List Byte) : Option EntryArg :=
  match Config.entryKindOf (byteAt bs 1) with
  | some .lamp => (lampArg bs).map .lamp
  | some .sensor => (sensorArg bs).map .sensor
  | some .actuator => (actArg bs).map .actuator
  | none => none

/-- The PLAN_WRITE body: entry index, entry kind, the entry's fields. -/
def writeArgs (h : ReqHdr) (bs : List Byte) : Decoded :=
  if bs.length = planWriteLength then
    (entryArg bs).elim .writeOther fun e => .request (.planWrite h (byteAt bs 0).toNat e)
  else .badLength

/-- The PROBE_RUN body: sequencer, target kind, first index, count, direction, step kind, mode, demand condition,
cycle period (R99, R188). -/
def runArgs (h : ReqHdr) : List Byte → Decoded
  | [n, t, f, c, d, k, m, w, p] =>
    .request
      (.probeRun h n.toNat
        { target := Config.probeTargetOf t, first := f.toNat, count := c.toNat, direction := Config.directionOf d,
          kind := Config.stepKindOf k, mode := Config.probeModeOf m, demand := Config.demandOf w,
          period := p.toNat })
  | _ => .badLength

/-- The PROBE_MASK body: sequencer, MASK or UNMASK (R101). -/
def maskArgs (h : ReqHdr) : List Byte → Decoded
  | [n, v] =>
    match Config.maskOf v with
    | some true => .request (.probeMask h n.toNat)
    | some false => .request (.probeUnmask h n.toNat)
    | none => .badArgument
  | _ => .badLength

/-- The level byte of a CLAIM body: 1 to 31 is a number, another byte may be DEFAULT (R106, R188). -/
def levelByte (b : Byte) : LevelArg :=
  if decide (b = Config.levelDefault) && !(decide (1 ≤ b.toNat) && decide (b.toNat ≤ 31)) then .dflt else .num b.toNat

/-- The byte of a FAULT_CLEAR body: 0 to 23 is a channel, another byte may be ALL (R138, R188). -/
def clearTargetByte (b : Byte) : ClearTarget :=
  if decide (b = Config.clearAll) && decide (23 < b.toNat) then .all else .channel b.toNat

/-- The set byte of a NOTICE_FILTER body: one bit for each of the five names; `none` where another bit is set (R28,
R188). -/
def filterByte (b : Byte) : Option Filter :=
  let has (k : Fin 8) : Bool := b.getLsbD (Config.filterBits k).val
  if has 5 || has 6 || has 7 then none else some ⟨has 0, has 1, has 2, has 3, has 4⟩

/-- The CLAIM body: function, mode, level (R109). -/
def claimArgs (h : ReqHdr) : List Byte → Decoded
  | [f, m, l] => .request (.claim h f.toNat (Config.claimModeOf m) (levelByte l))
  | _ => .badLength

/-- The request a code of 11.5 and a body spell (R188 step 4). -/
def requestOf (h : ReqHdr) (code : Byte) (bs : List Byte) : Decoded :=
  match code.toNat with
  | 0x01 => noArgs (.ping h) bs
  | 0x02 => noArgs (.unitStatus h) bs
  | 0x03 => noArgs (.unitAck h) bs
  | 0x04 => oneArg (fun a => .funcStatus h a.toNat) bs
  | 0x05 => noArgs (.noticeFetch h) bs
  | 0x06 => oneArg (fun a => .noticeFilter h (filterByte a)) bs
  | 0x07 => noArgs (.noticeResync h) bs
  | 0x08 => oneArg (fun a => .recRead h a.toNat) bs
  | 0x09 => twoArgs (fun a b => .recList h (Config.recKindOf a) b.toNat) bs
  | 0x0A => claimArgs h bs
  | 0x0B => oneArg (fun a => .release h a.toNat) bs
  | 0x0C => noArgs (.releaseAll h) bs
  | 0x0D => oneArg (fun a => .actTake h a.toNat) bs
  | 0x0E => moveArgs h bs
  | 0x0F => oneArg (fun a => .actStop h a.toNat) bs
  | 0x10 => oneArg (fun a => .actGive h a.toNat) bs
  | 0x11 => oneArg (fun a => .unitAssign h a.toNat) bs
  | 0x12 => oneArg (fun a => .motion h (Config.motionOf a)) bs
  | 0x13 => noArgs (.phase h) bs
  | 0x14 => oneArg (fun a => .faultClear h (clearTargetByte a)) bs
  | 0x15 => noArgs (.reprobe h) bs
  | 0x16 => oneArg (fun a => .unitSet h (Config.arbModeOf a)) bs
  | 0x17 => noArgs (.unitClear h) bs
  | 0x18 => oneArg (fun a => .recRetire h a.toNat) bs
  | 0x19 => editArgs h bs
  | 0x1A => noArgs (.planOpen h) bs
  | 0x1B => writeArgs h bs
  | 0x1C => twoArgs (fun a b => .planCommit h (wordOf a b)) bs
  | 0x1D => noArgs (.planDiscard h) bs
  | 0x1E => twoArgs (fun a b => .planRead h (Config.planCopyOf a) b.toNat) bs
  | 0x1F => runArgs h bs
  | 0x20 => oneArg (fun a => .probeStep h a.toNat) bs
  | 0x21 => maskArgs h bs
  | 0x22 => oneArg (fun a => .probeStop h a.toNat) bs
  | 0x23 => oneArg (fun a => .probeStatus h a.toNat) bs
  | _ => .badLength

/-! ## Ranges of plan fields (R39 to R41, R50) -/

/-- A value lies in a range, both ends included. -/
def inRange (lo hi n : Nat) : Bool := decide (lo ≤ n) && decide (n ≤ hi)

/-- A calibration part is in range (R40, R154). -/
def calibInRange (k : Calib) : Bool :=
  inRange 0 3000 k.offset && inRange 1 9999 k.span && inRange 0 9999 k.low && inRange 0 9999 k.high

/-- A function code is known (R37). -/
def fnKnown (f : Nat) : Bool := decide (f ≤ 27)

/-- A lamp entry's fields are in range (R50 step 3). -/
def lampEntryOk (e : LampEntry) : Bool :=
  decide (e.bindings.length ≤ 2) && e.bindings.all fun b => fnKnown b.fn && inRange 1 31 b.level

/-- A sensor entry's fields are in range (R50 step 3). -/
def sensorEntryOk (e : SensorEntry) : Bool := e.fn.all fnKnown && e.calib.all calibInRange

/-- The function a sense interlock names is known. -/
def interlockOk : Interlock → Bool
  | .senseOpened f => fnKnown f
  | .senseClosed f => fnKnown f
  | _ => true

/-- A position link's fields are in range (R50 step 3). -/
def linkOk (l : PosLink) : Bool :=
  decide (l.counter ≤ 1) && fnKnown l.home && decide (l.low ≤ 4095) && decide (l.high ≤ 4095)

/-- An actuator entry's fields are in range (R50 step 3). -/
def actEntryOk (e : ActEntry) : Bool :=
  e.fn.all fnKnown && e.runLimit.all (inRange 1 250) && decide (e.interlocks.length ≤ 3) &&
    e.interlocks.all interlockOk && e.link.all linkOk

/-- A plan with one entry replaced, or none where the index or the contents are refused (R50 step 3). -/
def writeEntry (p : Plan) (index : Nat) : EntryArg → Option Plan
  | .lamp e =>
    (asFin 24 index).bind fun ch => if lampEntryOk e then some { p with lamps := p.lamps.set ch e } else none
  | .sensor e =>
    if 24 ≤ index then
      (asFin 10 (index - 24)).bind fun i =>
        if sensorEntryOk e then some { p with sensors := p.sensors.set i e } else none
    else none
  | .actuator e =>
    if 34 ≤ index then
      (asFin 6 (index - 34)).bind fun o => if actEntryOk e then some { p with acts := p.acts.set o e } else none
    else none

/-- The entry of an index 0 to 39 (3.2). -/
def readEntry (p : Plan) (index : Nat) : Option EntryArg :=
  if index < 24 then (asFin 24 index).map fun ch => .lamp p.lamps[ch]
  else if index < 34 then (asFin 10 (index - 24)).map fun i => .sensor p.sensors[i]
  else (asFin 6 (index - 34)).map fun o => .actuator p.acts[o]

/-! ## The commit check (R44, R45) -/

/-- Entries of lower index that bind a function to a lamp channel. -/
def lampsBelow (p : Plan) (n f : Nat) : Nat :=
  ((List.finRange 24).filter fun ch => decide (ch.val < n) && (channelFns p ch).contains f).length

/-- The checks of a lamp entry. -/
def lampPasses (p : Plan) (ch : Fin 24) : Bool :=
  let fs := channelFns p ch
  fs.all isLampFn && fs.Nodup && fs.all fun f => decide (lampsBelow p ch.val f < 4)

/-- Entries of lower index that name a SENSE function. -/
def sensorsBelow (p : Plan) (n f : Nat) : Nat :=
  ((List.finRange 10).filter fun i => decide (i.val < n) && decide (p.sensors[i].fn = some f)).length

/-- The checks of a sensor entry. -/
def sensorPasses (p : Plan) (i : Fin 10) : Bool :=
  let e := p.sensors[i]
  (decide (e.cls ≠ .unused) || (e.fn.isNone && !e.wake && e.calib.isNone)) && e.fn.all isSenseFn &&
    (!e.wake || decide (e.cls = .switch)) &&
    (e.calib.all fun k => decide (e.cls = .resistive) && decide (k.low ≤ k.high)) &&
    e.fn.all fun f => decide (sensorsBelow p i.val f < 4)

/-- A SENSE function passes R45: some entry names it, and every one that does is a SWITCH. -/
def sensePasses (p : Plan) (f : Nat) : Bool :=
  let ins := inputsOf p f
  isSenseFn f && !ins.isEmpty && ins.all fun i => decide (p.sensors[i].cls = .switch)

/-- The function of a sense interlock passes R45. -/
def interlockPasses (p : Plan) : Interlock → Bool
  | .senseOpened f => sensePasses p f
  | .senseClosed f => sensePasses p f
  | _ => true

/-- No actuator entry of lower index meets a condition. -/
def noActBelow (p : Plan) (o : Fin 6) (c : ActEntry → Bool) : Bool :=
  (List.finRange 6).all fun k => !(decide (k.val < o.val) && c p.acts[k])

/-- The checks of a position link. -/
def linkPasses (p : Plan) (o : Fin 6) (l : PosLink) : Bool :=
  decide (p.acts[o].cls = .motor) && noActBelow p o (fun e => e.link.any fun k => decide (k.counter = l.counter)) &&
    sensePasses p l.home && decide (l.low < l.high)

/-- The checks of an actuator entry. -/
def actPasses (p : Plan) (o : Fin 6) : Bool :=
  let e := p.acts[o]
  e.fn.all isBodyFn && (e.fn.all fun f => noActBelow p o fun k => decide (k.fn = some f)) &&
    decide (e.runLimit.isSome = decide (e.cls = .motor)) && e.interlocks.Nodup &&
    !(e.interlocks.contains .coupled && e.interlocks.contains .uncoupled) &&
    e.interlocks.all (interlockPasses p) && e.link.all (linkPasses p o)

/-- An entry of index 0 to 39 passes its checks (R44). -/
def entryPasses (p : Plan) (index : Nat) : Bool :=
  if index < 24 then (asFin 24 index).all (lampPasses p)
  else if index < 34 then (asFin 10 (index - 24)).all (sensorPasses p)
  else (asFin 6 (index - 34)).all (actPasses p)

/-- The index of the first entry that fails, if any does (R44). -/
def firstFailing (p : Plan) : Option Nat := (List.range 40).find? fun k => !entryPasses p k

/-! ## Ranges of request arguments -/

/-- A level argument is DEFAULT or 1 to 31 (R109). -/
def levelOk : LevelArg → Bool
  | .dflt => true
  | .num n => inRange 1 31 n

/-- The number of subjects of a target kind (R99). -/
def targetSize : ProbeTarget → Nat
  | .lamp => 24
  | .sensor => 10
  | .actuator => 6

/-- A step kind belongs to a target kind (R85). -/
def kindSuits : ProbeTarget → StepKind → Bool
  | .lamp, .classify => true
  | .lamp, .verify => true
  | .sensor, .measure => true
  | .actuator, .check => true
  | _, _ => false

/-- The list stays within the kind's range (R99). -/
def listFits (size first count : Nat) : Direction → Bool
  | .up => decide (first + count ≤ size)
  | .down => decide (first < size) && decide (count ≤ first + 1)

/-- The program of a PROBE_RUN, or none where R99 step 2 refuses it. -/
def programOf (a : RunArgs) : Option Program :=
  match a.target, a.direction, a.kind, a.mode, a.demand with
  | some t, some d, some k, some m, some w =>
    if kindSuits t k && inRange 1 60 a.period && inRange 1 24 a.count && listFits (targetSize t) a.first a.count d then
      some
        { target := t, list := runList a.first a.count d, kind := k, mode := m, demand := w, period := a.period,
          loaded := some ⟨a.first, a.count, d⟩ }
    else none
  | _, _, _, _, _ => none

end Sys2Proof.Machine
end

