-- ==== Sys2Proof/Machine/Requests.lean ====
section
/-! DEFINITION. The arrival of a request at a master's port and its judging before its own rule (R185 to R189). -/

namespace Sys2Proof.Machine

/-- FRONT takes no frames in QUIET and LOCAL (R185). -/
def frontDeaf (s : State) : Bool := decide (s.cc.state = .quiet) || decide (s.cc.state = .localAwake)

/-- A well-formed frame on a master's port: silence timer, attachment, idle timer, FRONT_SILENT (R185, R186, R63,
R121). -/
def portHeard (m : Master) (s : State) : State :=
  let s := setStation m { station s m with attached := true, silence := .running } s
  match m with
  | .front => { s with arb := { s.arb with frontSilent := false } }
  | _ => restartIdle s

/-- A well-formed frame arrives on a master's port: on FRONT it is discarded in QUIET and LOCAL, on CHASSIS and
SERVICE it is taken in LOCAL when it finds QUIET (R62, R113, R185, log entry 33). -/
def arrive (m : Master) (k : State → State) (s : State) : State :=
  match m with
  | .front => if frontDeaf s then s else k (portHeard .front s)
  | m => k (portHeard m (wake s))

/-- Set a master's outstanding-request mark (R188). -/
def setOutstanding (m : Master) (b : Bool) (s : State) : State :=
  setStation m { station s m with outstanding := b } s

/-- A frame of FRONT is also passed down the train (R181, R189). -/
def passDown (h : ReqHdr) (f : FwdFrame) (fwd : Bool) (s : State) : State :=
  if fwd && decide (h.station = .front) then joinDown f s else s

/-- A request judged by the one-outstanding and station steps, then taken by its own rule (R188 steps 1, 3 and 5). -/
def takeRequest (h : ReqHdr) (allowed : List Master) (body : State → State) (s : State) : State :=
  if !h.broadcast && (station s h.station).outstanding then refuseEarly h .busy s
  else if !allowed.contains h.station then refuseEarly h .forbidden s
  else body (if h.broadcast then s else setOutstanding h.station true s)

/-- The frame in a port's receive buffer has been judged: the buffer is empty (R185). -/
def frameJudged (p : Port) (s : State) : State := setLine p { line s p with rx := [], collided := false } s

/-- A request row: the frame arrives, a broadcast (or a PHASE, `fwd`) on FRONT is passed down, and the request is
judged and taken (log entry 7). -/
def requestEvent (h : ReqHdr) (c : Instr) (allowed : List Master) (fwd : Bool) (body : State → State)
    (s : State) : State :=
  event
    (fun s =>
      arrive h.station (fun s => takeRequest h allowed body (passDown h (.command c) (h.broadcast || fwd) s))
        (frameJudged (masterPort h.station) s)) s

/-- A request that a broadcast does not move (R189). -/
def addressed (h : ReqHdr) (f : State → State) (s : State) : State := if h.broadcast then s else f s

/-- Every master. -/
def allMasters : List Master := [.front, .chassis, .service]

end Sys2Proof.Machine
end

