-- ==== Sys2Proof/Machine/ExecStatus.lean ====
section
/-! DEFINITION. The requests that read the part and the notice requests: PING, UNIT_STATUS, UNIT_ACK, FUNC_STATUS,
NOTICE_FETCH, NOTICE_FILTER, NOTICE_RESYNC, REC_READ, REC_LIST, REC_RETIRE. -/

namespace Sys2Proof.Machine

/-! ## PING, UNIT_STATUS, UNIT_ACK, FUNC_STATUS -/

/-- PING changes nothing and replies DONE (R191). -/
def doPing (h : ReqHdr) (s : State) : State :=
  replyWith h .done (.ping s.chain.own s.cc.state (quality s) s.chain.rear) s

/-- PING. -/
def execPing (h : ReqHdr) (s : State) : Host.Outcome State Fault Refusal :=
  .next (requestEvent h (.ping h) allMasters false (doPing h) s)

/-- UNIT_STATUS replies with the unit status image (R33). -/
def doUnitStatus (h : ReqHdr) (s : State) : State := replyWith h .done (.unitStatus (statusImage s)) s

/-- UNIT_STATUS. -/
def execUnitStatus (h : ReqHdr) (s : State) : Host.Outcome State Fault Refusal :=
  .next (requestEvent h (.unitStatus h) allMasters false (doUnitStatus h) s)

/-- UNIT_ACK clears SUPPLY_EVENT, CLEAR_EVENT and UP_OVERRUN (R34). -/
def doUnitAck (h : ReqHdr) (s : State) : State :=
  reply h .done
    (mapChain (fun c => { c with upOverrun := false })
      (mapCc (fun c => { c with supplyEvent := false, clearEvent := false }) s))

/-- UNIT_ACK. -/
def execUnitAck (h : ReqHdr) (s : State) : Host.Outcome State Fault Refusal :=
  .next (requestEvent h (.unitAck h) allMasters false (doUnitAck h) s)

/-- Subjects of a function in plan order with the tags of their live records (R35, R42). -/
def functionSubjects (s : State) (f : Nat) : List (Nat × Option (Fin 40)) :=
  match fnClass f with
  | some .body => (outputsOf s.plan.active f).map fun o => (o.val, liveTag s (.actuator o))
  | some .sense => (inputsOf s.plan.active f).map fun i => (i.val, liveTag s (.sensor i))
  | some _ => (channelsOf s.plan.active f).map fun ch => (ch.val, liveTag s (.lamp ch))
  | none => []

/-- FUNC_STATUS reports the table's entry and the bound subjects (R35). -/
def doFuncStatus (h : ReqHdr) (fn : Nat) (s : State) : State :=
  match asFin 28 fn with
  | none => reply h .badArg s
  | some f => replyWith h .done (.funcStatus s.plan.status[f] (functionSubjects s fn)) s

/-- FUNC_STATUS. -/
def execFuncStatus (h : ReqHdr) (fn : Nat) (s : State) : Host.Outcome State Fault Refusal :=
  .next (requestEvent h (.funcStatus h fn) allMasters false (doFuncStatus h fn) s)

/-! ## Notice requests -/

/-- Position and referenced mark of a position part, from the counter at this moment (R6). -/
def positionOf (s : State) (c : Content) : Option (Nat × Bool) :=
  match c with
  | .actuator _ r =>
    r.pos.bind fun p => (asFin 2 p.counter).map fun k => (s.input.counters[k].count, s.input.counters[k].referenced)
  | _ => none

/-- The record of a tag as REC_READ returns it at this moment (R20). -/
def imageOf (s : State) (t : Fin 40) : Option RecordImage :=
  s.store.records[t].map fun r => ⟨t, r, positionOf s r.content⟩

/-- The image of a notice entry (R30). -/
def entryImage (s : State) : NoticeEntry → Option Image
  | .tag t => (imageOf s t).map .record
  | .unitStatus => some (.status (statusImage s))

/-- Bytes an image takes: 12 a cell, 26 for the unit status (R30). -/
def imageSize : Image → Nat
  | .record r => 12 * r.record.content.cells
  | .status _ => 26

/-- Walk a queue from its head: the passing entries picked, at most 3, and only while the images fit in the 40-byte
payload after its 2 opening bytes (R30). `room` is the room left and `k` the picks left. -/
def pickEntries (s : State) (f : Filter) : List NoticeEntry → Nat → Nat → List (NoticeEntry × Image)
  | [], _, _ => []
  | _, _, 0 => []
  | e :: es, room, k + 1 =>
    if passes s f e then
      match entryImage s e with
      | none => pickEntries s f es room (k + 1)
      | some im => if imageSize im ≤ room then (e, im) :: pickEntries s f es (room - imageSize im) k else []
    else pickEntries s f es room (k + 1)

/-- What a NOTICE_FETCH of a master picks now (R30). -/
def fetchPicks (s : State) (m : Master) : List (NoticeEntry × Image) :=
  pickEntries s (queueOf s m).filter (queueOf s m).entries 38 3

/-- A queue without the picked entries. -/
def withoutPicks (ps : List (NoticeEntry × Image)) (q : NoticeQueue) : NoticeQueue :=
  { q with entries := q.entries.filter fun e => !(ps.map (·.1)).contains e }

/-- NOTICE_FETCH takes entries from the sender's queue (R30). -/
def doNoticeFetch (h : ReqHdr) (s : State) : State :=
  let m := h.station
  let ps := fetchPicks s m
  let s := settleMark m (setQueue m (withoutPicks ps (queueOf s m)) s)
  replyWith h .done (.fetch (queueOf s m).overflowed (passingCount s m) (ps.map (·.2))) s

/-- NOTICE_FETCH. -/
def execNoticeFetch (h : ReqHdr) (s : State) : Host.Outcome State Fault Refusal :=
  .next (requestEvent h (.noticeFetch h) allMasters false (addressed h (doNoticeFetch h)) s)

/-- NOTICE_FILTER replaces the sender's filter (R28). -/
def doNoticeFilter (h : ReqHdr) (set : Option Filter) (s : State) : State :=
  match set with
  | none => reply h .badArg s
  | some f => reply h .done (settleMark h.station (setQueue h.station { queueOf s h.station with filter := f } s))

/-- NOTICE_FILTER. -/
def execNoticeFilter (h : ReqHdr) (set : Option Filter) (s : State) : Host.Outcome State Fault Refusal :=
  .next (requestEvent h (.noticeFilter h set) allMasters false (doNoticeFilter h set) s)

/-- NOTICE_RESYNC empties the sender's queue and lists the live tags (R31). -/
def doNoticeResync (h : ReqHdr) (s : State) : State :=
  let q := queueOf s h.station
  replyWith h .done (.tags (liveTags s))
    (setQueue h.station { q with entries := [], overflowed := false, pendingSent := false } s)

/-- NOTICE_RESYNC. -/
def execNoticeResync (h : ReqHdr) (s : State) : Host.Outcome State Fault Refusal :=
  .next (requestEvent h (.noticeResync h) allMasters false (addressed h (doNoticeResync h)) s)

/-! ## Record requests -/

/-- REC_READ (R20). -/
def doRecRead (h : ReqHdr) (tag : Nat) (s : State) : State :=
  match asFin 40 tag with
  | none => reply h .badArg s
  | some t =>
    match imageOf s t with
    | none => reply h .notFound s
    | some im => replyWith h .done (.record im) s

/-- REC_READ. -/
def execRecRead (h : ReqHdr) (tag : Nat) (s : State) : Host.Outcome State Fault Refusal :=
  .next (requestEvent h (.recRead h tag) allMasters false (doRecRead h tag) s)

/-- Tags of the live records of a kind at or above a start tag, ascending (R21). -/
def tagsOfKind (s : State) (k : RecKind) (start : Nat) : List (Fin 40) :=
  (List.finRange 40).filter fun t =>
    decide (start ≤ t.val) && (s.store.records[t]).any fun r => decide (r.content.kind = k)

/-- REC_LIST lists up to 20 tags and the next one (R21). -/
def doRecList (h : ReqHdr) (kind : Option RecKind) (start : Nat) (s : State) : State :=
  match kind with
  | none => reply h .badArg s
  | some k =>
    if 39 < start then reply h .badArg s
    else
      let ts := tagsOfKind s k start
      replyWith h .done (.recList (ts.take 20) (ts[20]?)) s

/-- REC_LIST. -/
def execRecList (h : ReqHdr) (kind : Option RecKind) (start : Nat) (s : State) : Host.Outcome State Fault Refusal :=
  .next (requestEvent h (.recList h kind start) allMasters false (doRecList h kind start) s)

/-- A record is an ACTUATOR record with a holder (R22). -/
def heldRecord (c : Content) : Bool := (Content.actRec c).any fun r => r.holder.isSome

/-- REC_RETIRE releases the record it names (R22). -/
def doRecRetire (h : ReqHdr) (tag : Nat) (s : State) : State :=
  match asFin 40 tag with
  | none => reply h .badArg s
  | some t =>
    match s.store.records[t] with
    | none => reply h .notFound s
    | some r => if heldRecord r.content then reply h .refusedState s else reply h .done (releaseRec t s)

/-- REC_RETIRE. -/
def execRecRetire (h : ReqHdr) (tag : Nat) (s : State) : Host.Outcome State Fault Refusal :=
  .next (requestEvent h (.recRetire h tag) [.service] false (addressed h (doRecRetire h tag)) s)

/-! ## REC_EDIT -/

/-- The record of a REC_EDIT's tag, or the refusal (R141, R154). -/
def editTarget (s : State) (tag : Nat) : Except Result (Fin 40 × Record) :=
  match asFin 40 tag with
  | none => .error .badArg
  | some t =>
    match s.store.records[t] with
    | none => .error .notFound
    | some r => .ok (t, r)

/-- A changed open mask; setting it takes an OPEN channel to NORMAL (R141). -/
def changeMask (ch : Fin 24) (set : Bool) (s : State) : State :=
  let s := if set && decide (s.lamp.channels[ch].fault = .opened) then setFault ch .normal s else s
  rearbitrate (mirrorLamp ch (fun r => { r with openMask := set }) s)

/-- REC_EDIT of an open mask (R141, R10). -/
def doRecEditOpenMask (h : ReqHdr) (tag : Nat) (set : Bool) (s : State) : State :=
  match editTarget s tag with
  | .error r => reply h r s
  | .ok (_, ⟨_, .lamp ch r⟩) => reply h .done (if r.openMask = set then s else changeMask ch set s)
  | .ok _ => reply h .badArg s

/-- REC_EDIT naming the open mask. -/
def execRecEditOpenMask (h : ReqHdr) (tag : Nat) (set : Bool) (s : State) : Host.Outcome State Fault Refusal :=
  .next (requestEvent h (.recEditOpenMask h tag set) [.service] false (addressed h (doRecEditOpenMask h tag set)) s)

/-- A SENSOR record with its calibration part set or removed, value and band computed again (R154, R151). -/
def recalibrated (k : Option Calib) (r : SensorRec) : SensorRec :=
  let v := sensorValue k r.raw
  let b := sensorBand k v
  { r with
    calib := k, value := v, band := b,
    changeCount := if b = r.band then r.changeCount else r.changeCount + 1 }

/-- The calibration values of a SET are in range, the low threshold not above the high (R154 step 1). -/
def editInRange : Option Calib → Bool
  | none => true
  | some k => calibInRange k && decide (k.low ≤ k.high)

/-- A supersede for a master: refused with NO_ROOM where it cannot complete at once (R13). -/
def editSupersede (h : ReqHdr) (t : Fin 40) (c : Content) (s : State) : State :=
  if hasRoom s c.cells && s.store.queue.isEmpty then
    match lowestFree s.store with
    | some u => replyWith h .done (.newTag u) (supersede t c s)
    | none => reply h .noRoom s
  else reply h .noRoom (noteNoRoom s)

/-- The store operation of a calibration edit (R154). -/
def editCalibration (h : ReqHdr) (t : Fin 40) (i : Fin 10) (r : SensorRec) (edit : Option Calib) (s : State) : State :=
  let c : Content := .sensor i (recalibrated edit r)
  if r.calib.isSome = edit.isSome then
    if edit.isSome then reply h .done (updateRec t c false s) else reply h .done s
  else editSupersede h t c s

/-- REC_EDIT of a calibration part (R154, R10). -/
def doRecEditCalibration (h : ReqHdr) (tag : Nat) (edit : Option Calib) (s : State) : State :=
  if 39 < tag || !editInRange edit then reply h .badArg s
  else
    match editTarget s tag with
    | .error r => reply h r s
    | .ok (t, ⟨_, .sensor i r⟩) => if r.resistive then editCalibration h t i r edit s else reply h .badArg s
    | .ok _ => reply h .badArg s

/-- REC_EDIT naming the calibration part. -/
def execRecEditCalibration (h : ReqHdr) (tag : Nat) (edit : Option Calib) (s : State) :
    Host.Outcome State Fault Refusal :=
  .next
    (requestEvent h (.recEditCalibration h tag edit) [.service] false (addressed h (doRecEditCalibration h tag edit)) s)

/-- A REC_EDIT that names a field no record kind can edit (R141, R154, R10). -/
def doRecEditOther (h : ReqHdr) (tag : Nat) (s : State) : State :=
  match editTarget s tag with
  | .error r => reply h r s
  | .ok _ => reply h .badArg s

end Sys2Proof.Machine
end

