-- ==== Sys2Proof/Machine/ExecClaims.lean ====
section
/-! DEFINITION. The claim requests, and the requests of the coupling, lamp and source blocks: CLAIM, RELEASE,
RELEASE_ALL, UNIT_ASSIGN, MOTION, PHASE, FAULT_CLEAR, REPROBE, UNIT_SET. -/

namespace Sys2Proof.Machine

/-! ## Claims -/

/-- The function lies in a master's set (R108). -/
def mayClaim (s : State) (m : Master) (fn : Nat) : Bool :=
  match m with
  | .front => isLampFn fn
  | .chassis => decide (fn = fnStop) || decide (fn = fnTurnLeft) || decide (fn = fnTurnRight)
  | .service => if holdEffective s then isLampFn fn else isWorkFn fn

/-- The judging of a CLAIM (R109). -/
def claimResult (s : State) (m : Master) (fn : Nat) (mode : Option ClaimMode) (level : LevelArg) : Result :=
  if 27 < fn || mode.isNone || !levelOk level then .badArg
  else if !isLampFn fn then .badArg
  else if !mayClaim s m fn then .forbidden
  else if s.cc.state = .mating then .refusedState
  else .done

/-- A claim is entered; FRONT's removes every UNIT claim (R109, R122). -/
def enterClaim (m : Master) (fn : Nat) (v : ClaimVal) (s : State) : State :=
  let s := setClaim (asClaimant m) fn (some v) s
  rearbitrate (if m = .front then clearClaims .unit s else s)

/-- CLAIM (R109). -/
def doClaim (h : ReqHdr) (fn : Nat) (mode : Option ClaimMode) (level : LevelArg) (s : State) : State :=
  match claimResult s h.station fn mode level, mode with
  | .done, some m => reply h .done (enterClaim h.station fn ⟨m, level⟩ s)
  | r, _ => reply h r s

/-- CLAIM. -/
def execClaim (h : ReqHdr) (fn : Nat) (mode : Option ClaimMode) (level : LevelArg) (s : State) :
    Host.Outcome State Fault Refusal :=
  .next (requestEvent h (.claim h fn mode level) allMasters false (doClaim h fn mode level) s)

/-- RELEASE (R111). -/
def doRelease (h : ReqHdr) (fn : Nat) (s : State) : State :=
  if !isLampFn fn then reply h .badArg s
  else if (claimAt s (asClaimant h.station) fn).isNone then reply h .notFound s
  else reply h .done (rearbitrate (setClaim (asClaimant h.station) fn none s))

/-- RELEASE. -/
def execRelease (h : ReqHdr) (fn : Nat) (s : State) : Host.Outcome State Fault Refusal :=
  .next (requestEvent h (.release h fn) allMasters false (doRelease h fn) s)

/-- RELEASE_ALL (R112). -/
def doReleaseAll (h : ReqHdr) (s : State) : State :=
  let s := clearClaims (asClaimant h.station) s
  reply h .done (rearbitrate (if h.station = .front then clearClaims .unit s else s))

/-- RELEASE_ALL. -/
def execReleaseAll (h : ReqHdr) (s : State) : Host.Outcome State Fault Refusal :=
  .next (requestEvent h (.releaseAll h) allMasters false (doReleaseAll h) s)

/-! ## UNIT_ASSIGN, MOTION -/

/-- The coupling states in which UNIT_ASSIGN is taken (R178). -/
def assignState : CouplingState → Bool
  | .mating => true
  | .probing => true
  | .serving => true
  | _ => false

/-- UNIT_ASSIGN (R178); the reply DONE is made after the change, so it carries the new own number (log entry 49). -/
def doUnitAssign (h : ReqHdr) (n : Nat) (s : State) : State :=
  if !inRange 1 4 n then reply h .badArg s
  else if !assignState s.cc.state then reply h .refusedState s
  else reply h .done (takeNumber n s)

/-- UNIT_ASSIGN. -/
def execUnitAssign (h : ReqHdr) (n : Nat) (s : State) : Host.Outcome State Fault Refusal :=
  .next (requestEvent h (.unitAssign h n) [.front] false (addressed h (doUnitAssign h n)) s)

/-- Set motion, taken by the arbiter and the actuator block (R77). -/
def setMotion (m : Motion) (s : State) : State := changeCoupling (mapCc fun c => { c with motion := m }) s

/-- MOTION (R78). -/
def doMotion (h : ReqHdr) (v : Option Motion) (s : State) : State :=
  match v with
  | some .parked => reply h .done (setMotion .parked s)
  | some .moving => reply h .done (setMotion .moving s)
  | _ => reply h .badArg s

/-- MOTION. -/
def execMotion (h : ReqHdr) (v : Option Motion) (s : State) : Host.Outcome State Fault Refusal :=
  .next (requestEvent h (.motion h v) [.front] false (doMotion h v) s)

/-! ## PHASE, FAULT_CLEAR -/

/-- A PHASE frame acts on the timebase (R134). -/
def takePhase (s : State) : State :=
  match s.lamp.timebase with
  | .stopped => s
  | _ => refreshDriven (setTimebase .on .running s)

/-- PHASE (R134). -/
def doPhase (h : ReqHdr) (s : State) : State := reply h .done (takePhase s)

/-- PHASE; an addressed one is passed down the train as well (R181). -/
def execPhase (h : ReqHdr) (s : State) : Host.Outcome State Fault Refusal :=
  .next (requestEvent h (.phase h) [.front] true (doPhase h) s)

/-- A channel in SHORT is cleared: NORMAL, clear window from zero, the record to PRESENT (R138). -/
def clearShort (ch : Fin 24) (s : State) : State :=
  let s := setFault ch .normal s
  mirrorLamp ch id (setChannel ch { s.lamp.channels[ch] with clearWindow := .running } s)

/-- Channels in a fault state, ascending. -/
def channelsIn (s : State) (f : FaultState) : List (Fin 24) :=
  (List.finRange 24).filter fun ch => s.lamp.channels[ch].fault = f

/-- FAULT_CLEAR of one channel (R138). -/
def clearOne (h : ReqHdr) (ch : Fin 24) (s : State) : State :=
  match s.lamp.channels[ch].fault with
  | .short => reply h .done (rearbitrate (clearShort ch s))
  | .locked => reply h .refusedState s
  | _ => reply h .done s

/-- FAULT_CLEAR (R138). -/
def doFaultClear (h : ReqHdr) (target : ClearTarget) (s : State) : State :=
  match target with
  | .channel n => (asFin 24 n).elim (reply h .badArg s) fun ch => clearOne h ch s
  | .all =>
    let shorts := channelsIn s .short
    let s := rearbitrate (forEach shorts clearShort s)
    replyWith h .done (.cleared shorts.length (channelsIn s .locked).length) s

/-- FAULT_CLEAR. -/
def execFaultClear (h : ReqHdr) (target : ClearTarget) (s : State) : Host.Outcome State Fault Refusal :=
  .next (requestEvent h (.faultClear h target) [.front, .service] false (doFaultClear h target) s)

/-! ## REPROBE, UNIT_SET -/

/-- The judging of a REPROBE (R81). -/
def reprobeResult (s : State) (m : Master) : Result :=
  if s.plan.commit.isSome then .busy
  else if s.cc.state ≠ .serving then .refusedState
  else if m = .front && !parked s then .refusedState
  else if s.cc.bringUp then .busy
  else .accepted

/-- REPROBE (R81). -/
def doReprobe (h : ReqHdr) (s : State) : State :=
  match reprobeResult s h.station with
  | .accepted => reply h .accepted (enterProbing .reprobe s)
  | r => reply h r s

/-- REPROBE. -/
def execReprobe (h : ReqHdr) (s : State) : Host.Outcome State Fault Refusal :=
  .next (requestEvent h (.reprobe h) [.front, .service] false (doReprobe h) s)

/-- UNIT_SET sets the arbiter mode (R92). -/
def doUnitSet (h : ReqHdr) (mode : Option ArbMode) (s : State) : State :=
  match mode with
  | none => reply h .badArg s
  | some m => reply h .done { s with probe := { s.probe with mode := m } }

/-- UNIT_SET. -/
def execUnitSet (h : ReqHdr) (mode : Option ArbMode) (s : State) : Host.Outcome State Fault Refusal :=
  .next (requestEvent h (.unitSet h mode) [.service] false (addressed h (doUnitSet h mode)) s)

end Sys2Proof.Machine
end

