-- ==== Sys2Proof/Machine/ExecActuators.lean ====
section
/-! DEFINITION. The actuator requests: ACT_TAKE, ACT_MOVE in its four forms, ACT_STOP, ACT_GIVE. -/

namespace Sys2Proof.Machine

/-- The output and record of an actuator request, or its refusal (9.3). -/
def actTarget (s : State) (out : Nat) : Except Result (Fin 6 × ActRec) :=
  match asFin 6 out with
  | none => .error .badArg
  | some o =>
    match actRecord s o with
    | none => .error .notFound
    | some r => .ok (o, r)

/-- The output may be neither taken nor run: its record is in FAULT or MISSING, or its entry has function none. -/
def actBarred (s : State) (o : Fin 6) (r : ActRec) : Bool := decide (r.state ≠ .ready) || (actEntry s o).fn.isNone

/-- The reply HELD_BY names the holder (R163). -/
def replyHeldBy (h : ReqHdr) (m : Master) (s : State) : State := replyWith h .heldBy (.holder m) s

/-! ## ACT_TAKE -/

/-- A master becomes the holder of an output (R163). -/
def takeOut (o : Fin 6) (m : Master) (s : State) : State :=
  mirrorOut o (setOut o { s.act.outs[o] with holder := some m } s)

/-- ACT_TAKE (R163). -/
def doActTake (h : ReqHdr) (out : Nat) (s : State) : State :=
  match actTarget s out with
  | .error r => reply h r s
  | .ok (o, r) =>
    if actBarred s o r then reply h .refusedState s
    else
      match s.act.outs[o].holder with
      | none => reply h .done (takeOut o h.station s)
      | some m => if m = h.station then reply h .done s else replyHeldBy h m s

/-- ACT_TAKE. -/
def execActTake (h : ReqHdr) (out : Nat) (s : State) : Host.Outcome State Fault Refusal :=
  .next (requestEvent h (.actTake h out) allMasters false (addressed h (doActTake h out)) s)

/-! ## ACT_MOVE -/

/-- The run a request asks for (R167). -/
inductive MoveAsk where
  | direction (d : RunDir)
  | target (t : Nat)
  | energise
  deriving DecidableEq, Repr

/-- The arguments are in range (R167 step 1). -/
def askInRange : MoveAsk → Bool
  | .target t => decide (t ≤ 4095)
  | _ => true

/-- The form suits the output's entry (R167 step 5). -/
def askSuits (e : ActEntry) : MoveAsk → Bool
  | .direction _ => decide (e.cls = .motor)
  | .energise => decide (e.cls = .valve)
  | .target t => decide (e.cls = .motor) && e.link.any fun l => inRange l.low l.high t

/-- The count of an output's linked counter. -/
def countOf (s : State) (o : Fin 6) : Nat := (counterOf s o).elim 0 fun c => s.input.counters[c].count

/-- The counter's mark or count refuses the run (R167 steps 7 and 8). -/
def askBlocked (s : State) (o : Fin 6) : MoveAsk → Bool
  | .target _ => !referenced s o
  | .direction d =>
    (actEntry s o).link.any fun l =>
      referenced s o &&
        match d with
        | .a => decide (l.high ≤ countOf s o)
        | .b => decide (countOf s o ≤ l.low)
  | .energise => false

/-- The judging of an ACT_MOVE by its holder, steps 4 to 9 (R167). -/
def moveResult (s : State) (o : Fin 6) (r : ActRec) (ask : MoveAsk) : Result :=
  if running s o then .busy
  else if !askSuits (actEntry s o) ask then .badArg
  else if actBarred s o r || !driveSupply s then .refusedState
  else if askBlocked s o ask then .refusedState
  else if !interlocksHold s o then .refusedState
  else .accepted

/-- The run state, kind and target of a run asked for (R167). -/
def askRun (count : Nat) : MoveAsk → RunState × RunKind × Option Nat
  | .direction .a => (.runA, .direction, none)
  | .direction .b => (.runB, .direction, none)
  | .target t => (if t < count then .runB else .runA, .target, some t)
  | .energise => (.energised, .energise, none)

/-- A target equal to the count is met at once (R167). -/
def metAtOnce (s : State) (o : Fin 6) : MoveAsk → Bool
  | .target t => decide (t = countOf s o)
  | _ => false

/-- The run starts: the output, a CHECK of it skipped, and one update of the record (R167, R97). -/
def startMove (o : Fin 6) (ask : MoveAsk) (s : State) : State :=
  let a := askRun (countOf s o) ask
  let met := metAtOnce s o ask
  let s := skipCheck o (startRun o a.1 a.2.1 a.2.2 s)
  if met then endMet o s else mirrorOut o s

/-- ACT_MOVE (R167). -/
def doActMove (h : ReqHdr) (out : Nat) (ask : MoveAsk) (s : State) : State :=
  if !askInRange ask then reply h .badArg s
  else
    match actTarget s out with
    | .error r => reply h r s
    | .ok (o, r) =>
      match s.act.outs[o].holder with
      | none => reply h .refusedState s
      | some m =>
        if m ≠ h.station then replyHeldBy h m s
        else
          match moveResult s o r ask with
          | .accepted => reply h .accepted (startMove o ask s)
          | x => reply h x s

/-- ACT_MOVE with DIRECTION A or B. -/
def execActMoveDirection (h : ReqHdr) (out : Nat) (dir : RunDir) (s : State) : Host.Outcome State Fault Refusal :=
  .next
    (requestEvent h (.actMoveDirection h out dir) allMasters false (addressed h (doActMove h out (.direction dir))) s)

/-- ACT_MOVE with TARGET. -/
def execActMoveTarget (h : ReqHdr) (out : Nat) (target : Nat) (s : State) : Host.Outcome State Fault Refusal :=
  .next
    (requestEvent h (.actMoveTarget h out target) allMasters false (addressed h (doActMove h out (.target target))) s)

/-- ACT_MOVE with ENERGISE. -/
def execActMoveEnergise (h : ReqHdr) (out : Nat) (s : State) : Host.Outcome State Fault Refusal :=
  .next (requestEvent h (.actMoveEnergise h out) allMasters false (addressed h (doActMove h out .energise)) s)

/-! ## ACT_STOP, ACT_GIVE -/

/-- ACT_STOP ends the run in progress, from any master (R169). -/
def doActStop (h : ReqHdr) (out : Nat) (s : State) : State :=
  match actTarget s out with
  | .error r => reply h r s
  | .ok (o, _) => reply h .done (if running s o then endRun o .stopped s else s)

/-- ACT_STOP. -/
def execActStop (h : ReqHdr) (out : Nat) (s : State) : Host.Outcome State Fault Refusal :=
  .next (requestEvent h (.actStop h out) allMasters false (doActStop h out) s)

/-- ACT_GIVE gives up the hold (R164). -/
def doActGive (h : ReqHdr) (out : Nat) (s : State) : State :=
  match actTarget s out with
  | .error r => reply h r s
  | .ok (o, _) =>
    match s.act.outs[o].holder with
    | none => reply h .done s
    | some m =>
      if m = h.station then reply h .done (if running s o then endRun o .given s else freeOut o s)
      else replyHeldBy h m s

/-- ACT_GIVE. -/
def execActGive (h : ReqHdr) (out : Nat) (s : State) : Host.Outcome State Fault Refusal :=
  .next (requestEvent h (.actGive h out) allMasters false (addressed h (doActGive h out)) s)

end Sys2Proof.Machine
end

