-- ==== Sys2Proof/Machine/ExecPlan.lean ====
section
/-! DEFINITION. The plan requests (PLAN_OPEN, PLAN_WRITE, PLAN_COMMIT, PLAN_DISCARD, PLAN_READ) and the probe requests
(PROBE_RUN, PROBE_STEP, PROBE_MASK, PROBE_UNMASK, PROBE_STOP, PROBE_STATUS). -/

namespace Sys2Proof.Machine

/-! ## Plan requests -/

/-- Replace the staging plan. -/
def setStaging (p : Option Plan) (s : State) : State := { s with plan := { s.plan with staging := p } }

/-- PLAN_OPEN copies the active plan into staging (R49). -/
def doPlanOpen (h : ReqHdr) (s : State) : State := reply h .done (setStaging (some s.plan.active) s)

/-- PLAN_OPEN. -/
def execPlanOpen (h : ReqHdr) (s : State) : Host.Outcome State Fault Refusal :=
  .next (requestEvent h (.planOpen h) [.service] false (addressed h (doPlanOpen h)) s)

/-- PLAN_DISCARD empties staging (R49). -/
def doPlanDiscard (h : ReqHdr) (s : State) : State := reply h .done (setStaging none s)

/-- PLAN_DISCARD. -/
def execPlanDiscard (h : ReqHdr) (s : State) : Host.Outcome State Fault Refusal :=
  .next (requestEvent h (.planDiscard h) [.service] false (addressed h (doPlanDiscard h)) s)

/-- PLAN_WRITE replaces a staging entry; `write` gives the plan with the entry, or none where R50 step 3 refuses. -/
def doPlanWriteWith (h : ReqHdr) (write : Plan → Option Plan) (s : State) : State :=
  if s.plan.commit.isSome then reply h .busy s
  else
    match s.plan.staging with
    | none => reply h .refusedState s
    | some p =>
      match write p with
      | none => reply h .badArg s
      | some p' => reply h .done (setStaging (some p') s)

/-- PLAN_WRITE (R50). -/
def doPlanWrite (h : ReqHdr) (index : Nat) (e : EntryArg) (s : State) : State :=
  doPlanWriteWith h (fun p => writeEntry p index e) s

/-- PLAN_WRITE. -/
def execPlanWrite (h : ReqHdr) (index : Nat) (e : EntryArg) (s : State) : Host.Outcome State Fault Refusal :=
  .next (requestEvent h (.planWrite h index e) [.service] false (addressed h (doPlanWrite h index e)) s)

/-- The idents that R52 step 3 refuses. -/
def identRefused (s : State) (ident : Nat) : Bool :=
  decide (ident = 0) || decide (ident = 1) || decide (ident = s.plan.active.ident) ||
    decide (ident = s.cc.inventoryIdent) || (validPlan s).any fun p => decide (p.ident = ident)

/-- The coupling states in which a commit is taken (R52 step 2). -/
def commitState (s : State) : Bool :=
  decide (s.cc.state = .localAwake) || (decide (s.cc.state = .serving) && parked s)

/-- An accepted commit: the write begins (R52, R53). -/
def startCommit (p : Plan) (ident : Nat) (s : State) : State :=
  { s with plan := { s.plan with staging := none, stored := none, commit := some { p with ident := ident } } }

/-- PLAN_COMMIT (R52). -/
def doPlanCommit (h : ReqHdr) (ident : Nat) (s : State) : State :=
  if s.plan.commit.isSome then reply h .busy s
  else if !commitState s then reply h .refusedState s
  else if identRefused s ident || decide (65535 < ident) then reply h .badArg s
  else
    match s.plan.staging with
    | none => reply h .refusedState s
    | some p =>
      match firstFailing p with
      | some k => replyWith h .badPlan (.entryIndex k) s
      | none => reply h .accepted (startCommit p ident s)

/-- PLAN_COMMIT. -/
def execPlanCommit (h : ReqHdr) (ident : Nat) (s : State) : Host.Outcome State Fault Refusal :=
  .next (requestEvent h (.planCommit h ident) [.service] false (addressed h (doPlanCommit h ident)) s)

/-- A copy of the plan, if it can be read (R51). -/
def copyOf (s : State) : PlanCopy → Option Plan
  | .active => some s.plan.active
  | .staging => s.plan.staging
  | .stored => validPlan s

/-- PLAN_READ; an index or a copy out of range is refused before the copy is looked for (R51, log entry 43). -/
def doPlanRead (h : ReqHdr) (copy : Option PlanCopy) (index : Nat) (s : State) : State :=
  match copy with
  | none => reply h .badArg s
  | some c =>
    if 39 < index then reply h .badArg s
    else
      match copyOf s c with
      | none => reply h .notFound s
      | some p => (readEntry p index).elim (reply h .badArg s) fun e => replyWith h .done (.planEntry p.ident e) s

/-- PLAN_READ. -/
def execPlanRead (h : ReqHdr) (copy : Option PlanCopy) (index : Nat) (s : State) : Host.Outcome State Fault Refusal :=
  .next (requestEvent h (.planRead h copy index) [.service] false (addressed h (doPlanRead h copy index)) s)

/-! ## Probe requests -/

/-- A probe request on a sequencer 0 to 3, any other number refused (5.7). -/
def onSeq (h : ReqHdr) (sq : Nat) (f : Fin 4 → State → State) (s : State) : State :=
  (asFin 4 sq).elim (reply h .badArg s) fun n => f n s

/-- PROBE_RUN of a sequencer (R99). -/
def runSeq (h : ReqHdr) (a : RunArgs) (n : Fin 4) (s : State) : State :=
  if n.val < 3 && decide (s.cc.state = .probing) then reply h .busy s
  else
    match programOf a with
    | none => reply h .badArg s
    | some p => reply h .accepted (loadSeq n p .service s)

/-- PROBE_RUN (R99). -/
def doProbeRun (h : ReqHdr) (sq : Nat) (a : RunArgs) (s : State) : State := onSeq h sq (runSeq h a) s

/-- PROBE_RUN. -/
def execProbeRun (h : ReqHdr) (sq : Nat) (a : RunArgs) (s : State) : Host.Outcome State Fault Refusal :=
  .next (requestEvent h (.probeRun h sq a) [.service] false (addressed h (doProbeRun h sq a)) s)

/-- The statuses in which the previous step has not ended (R100). -/
def stepUnfinished : SeqStatus → Bool
  | .waitSource => true
  | .stepping => true
  | .waitLit => true
  | .waitStore => true
  | _ => false

/-- The judging of a PROBE_STEP (R100). -/
def stepResult (q : Sequencer) : Result :=
  if (q.program.all fun p => decide (p.mode ≠ .step)) || decide (q.status = .idle) || decide (q.status = .done) || q.mask
  then .refusedState
  else if stepUnfinished q.status then .busy
  else .accepted

/-- PROBE_STEP of a sequencer (R100). -/
def stepSeq (h : ReqHdr) (n : Fin 4) (s : State) : State :=
  match stepResult s.probe.seqs[n] with
  | .accepted => reply h .accepted (reach n true s)
  | r => reply h r s

/-- PROBE_STEP (R100). -/
def doProbeStep (h : ReqHdr) (sq : Nat) (s : State) : State := onSeq h sq (stepSeq h) s

/-- PROBE_STEP. -/
def execProbeStep (h : ReqHdr) (sq : Nat) (s : State) : Host.Outcome State Fault Refusal :=
  .next (requestEvent h (.probeStep h sq) [.service] false (doProbeStep h sq) s)

/-- Set a sequencer's mask mark; the gates are judged as reactions of the event (R87, R101). -/
def setMask (b : Bool) (n : Fin 4) (s : State) : State := setSeq n { s.probe.seqs[n] with mask := b } s

/-- PROBE_MASK with MASK (R101). -/
def doProbeMask (h : ReqHdr) (sq : Nat) (s : State) : State := onSeq h sq (fun n s => reply h .done (setMask true n s)) s

/-- PROBE_MASK with MASK. -/
def execProbeMask (h : ReqHdr) (sq : Nat) (s : State) : Host.Outcome State Fault Refusal :=
  .next (requestEvent h (.probeMask h sq) [.service] false (addressed h (doProbeMask h sq)) s)

/-- PROBE_MASK with UNMASK (R101). -/
def doProbeUnmask (h : ReqHdr) (sq : Nat) (s : State) : State :=
  onSeq h sq (fun n s => reply h .done (setMask false n s)) s

/-- PROBE_MASK with UNMASK. -/
def execProbeUnmask (h : ReqHdr) (sq : Nat) (s : State) : Host.Outcome State Fault Refusal :=
  .next (requestEvent h (.probeUnmask h sq) [.service] false (addressed h (doProbeUnmask h sq)) s)

/-- PROBE_STOP (R102). -/
def doProbeStop (h : ReqHdr) (sq : Nat) (s : State) : State :=
  onSeq h sq (fun n s => reply h .done (if s.probe.seqs[n].status = .idle then s else stopSeq n s)) s

/-- PROBE_STOP. -/
def execProbeStop (h : ReqHdr) (sq : Nat) (s : State) : Host.Outcome State Fault Refusal :=
  .next (requestEvent h (.probeStop h sq) [.service] false (addressed h (doProbeStop h sq)) s)

/-- A sequencer's state as PROBE_STATUS gives it (R103). -/
def probeImage (s : State) (n : Fin 4) : ProbeImage :=
  let q := s.probe.seqs[n]
  { status := q.status, origin := q.origin, target := q.program.map (·.target), kind := q.program.map (·.kind),
    mode := q.program.map (·.mode), demand := q.program.map (·.demand), period := q.program.map (·.period),
    index := q.index, remaining := q.remaining, tc := q.tc, mask := q.mask, inserted := q.inserted,
    hasHeld := q.held.isSome, isHolder := decide (s.probe.holder = some n), arbMode := s.probe.mode,
    last := s.probe.last, loaded := q.program.bind (·.loaded), listHead := q.program.bind (·.list.head?),
    listLength := q.program.elim 0 (·.list.length) }

/-- PROBE_STATUS (R103). -/
def doProbeStatus (h : ReqHdr) (sq : Nat) (s : State) : State :=
  onSeq h sq (fun n s => replyWith h .done (.probeStatus (probeImage s n)) s) s

/-- PROBE_STATUS. -/
def execProbeStatus (h : ReqHdr) (sq : Nat) (s : State) : Host.Outcome State Fault Refusal :=
  .next (requestEvent h (.probeStatus h sq) [.service] false (doProbeStatus h sq) s)

end Sys2Proof.Machine
end

