-- ==== Sys2Proof/Machine/ExecReset.lean ====
section
/-! DEFINITION. The two resets and the loss of power: SUPPLY_RESET, UNIT_CLEAR, POWER_LOSS (R60, R83, R192, and each
chapter's reset rule). -/

namespace Sys2Proof.Machine

/-- An input after a reset, by its class in the plan the reset loads; the pin keeps its level (R147, R159). -/
def resetInput (e : SensorEntry) (x : Input) : Input :=
  { level := .unknown, debounce := if e.cls = .switch then .running else .stopped, settled := false,
    snapshot := none, pinClosed := x.pinClosed }

/-- A counter after a reset; the phases keep their levels (R159). -/
def resetCounter (x : Counter) : Counter := { x with count := 0, referenced := false }

/-- The input block after a reset that loads a plan (R159). -/
def resetInputs (p : Plan) (b : InputBlock) : InputBlock :=
  { inputs := Vector.ofFn fun i : Fin 10 => resetInput p.sensors[i] b.inputs[i]
    counters := Vector.ofFn fun c : Fin 2 => resetCounter b.counters[c]
    sense := Vector.replicate 6 .unknown }

/-- The coupling controller after a reset into a state, its motion as R77 gives (R83). -/
def resetCc (st : CouplingState) (supply idleExpired fallback : Bool) (s : State) : Coupling :=
  { state := st, origin := .none,
    debounce := if st = .mating && s.lines.cplPresent then .running else .stopped, debounceDone := false,
    deadline := .stopped, bringUp := false, reprobe := false, storeTrouble := false, partingHold := .stopped,
    idleExpired := idleExpired, cycleRestore := false, motion := if st = .mating then .unknown else .parked,
    causes := ⟨false, false, false, false, fallback, false⟩, inventoryIdent := 0,
    supplyEvent := supply || s.cc.supplyEvent, clearEvent := !supply, heldSwitch := none }

/-- The lamp block after a reset: SUPPLY_LOW unless CPL_SUP is above 22 V, THERMAL_WARN by the temperature (R145). -/
def resetLamp (l : Lines) : LampBlock :=
  { channels := Vector.replicate 24 LampChannel.reset, timebase := .stopped, phaseTimer := .stopped,
    supplyLow := !l.cplAbove22, thermalWarn := l.hot }

/-- The claim arbiter after a reset (R128). -/
def resetArb : Arbiter :=
  { claims := Vector.replicate 4 (Vector.replicate 16 none), resolved := Vector.replicate 24 Resolved.off,
    shed := Vector.replicate 24 false, frontSilent := false }

/-- Every block after a reset into a coupling state; `supply` says which of the two resets it is. Kept are the lines,
the pins, the stored plan, at UNIT_CLEAR the commit in flight, and the ports, which each reset treats itself. -/
def resetBlocks (supply : Bool) (st : CouplingState) (s : State) : State :=
  let p := planToLoad s
  { s with
    cc := resetCc st supply supply (fallbackAtLoad s) s
    store := ⟨Vector.replicate 40 none, []⟩
    notice := Vector.replicate 3 NoticeQueue.reset
    plan := { s.plan with active := p, staging := none, commit := if supply then none else s.plan.commit }
    arb := resetArb
    lamp := resetLamp s.lines
    probe := ⟨Vector.replicate 4 Sequencer.idle, none, .fixed, 3⟩
    input := resetInputs p s.input
    act := { outs := Vector.replicate 6 Actuator.reset, batteryDrive := s.act.batteryDrive }
    chain := Chain.reset s.lines.rearSense
    work := ⟨[], false, false, false⟩ }

/-- The commands of a STOP_FORCE effect and the function status after a reset's load (R47, R128, R145). -/
def afterReset (s : State) : State := reconcile (rearbitrate s)

/-! ## SUPPLY_RESET, POWER_LOSS -/

/-- The supplies and the temperature as a supply reset finds them (R60, R142, R143, R161). -/
def viewSupplies (v : SupplyView) (s : State) : State :=
  { s with
    lines := { s.lines with cplPresent := v.cplPresent, cplAbove22 := v.cplAbove22, hot := v.hot }
    act := { s.act with batteryDrive := v.batteryDrive } }

/-- Every port after a supply reset (R186, log entry 36). -/
def resetPorts (s : State) : State :=
  { s with port := ⟨Vector.replicate 3 ⟨false, .stopped, false⟩, Vector.replicate 4 Line.reset⟩ }

/-- A supply reset (R83). -/
def supplyReset (v : SupplyView) (s : State) : State :=
  let s := resetPorts { viewSupplies v s with powered := true }
  let st : CouplingState := if s.lines.cplSense then .mating else .quiet
  let s := resetBlocks true st s
  afterReset (if st = .quiet then takeSnapshot s else s)

/-- SUPPLY_RESET. -/
def execSupplyReset (v : SupplyView) (s : State) : Host.Outcome State Fault Refusal := .next (supplyReset v s)

/-- POWER_LOSS: the part stops with its state as it was (R60). -/
def execPowerLoss (s : State) : Host.Outcome State Fault Refusal := .next { s with powered := false }

/-! ## UNIT_CLEAR -/

/-- The coupling states in which UNIT_CLEAR is taken (R192). -/
def clearState (s : State) : Bool :=
  decide (s.cc.state = .localAwake) || (decide (s.cc.state = .serving) && parked s)

/-- Frames waiting on a master's port are discarded. -/
def dropWaiting (p : Port) (s : State) : State := setLine p { line s p with waiting := [] } s

/-- The ports at a UNIT_CLEAR (R192, log entry 39). -/
def clearPorts (s : State) : State :=
  let s := emptyUp (emptyDown (detach .chassis (detach .front s)))
  dropWaiting .service (dropWaiting .chassis (dropWaiting .front s))

/-- The supply and the temperature as a UNIT_CLEAR finds them. Told above 22 V or above the warning threshold, they may
since have come down into the band below it, where no command tells of them: free values decide (R145, log entry 50). -/
def viewAtClear (s : State) : State :=
  { s with
    lines := { s.lines with
      cplAbove22 := s.lines.cplAbove22 && Config.freshAbove22 s.freshCount
      hot := s.lines.hot && Config.freshHot s.freshCount }
    freshCount := s.freshCount + 1 }

/-- UNIT_CLEAR's effect: that of a supply reset with its exceptions (R192, R83). -/
def unitClear (s : State) : State :=
  let st : CouplingState := if s.lines.cplSense then .mating else .localAwake
  afterReset (resetBlocks false st (clearPorts (viewAtClear s)))

/-- UNIT_CLEAR (R192). -/
def doUnitClear (h : ReqHdr) (s : State) : State :=
  if clearState s then reply h .done (unitClear s) else reply h .refusedState s

/-- UNIT_CLEAR. -/
def execUnitClear (h : ReqHdr) (s : State) : Host.Outcome State Fault Refusal :=
  .next (requestEvent h (.unitClear h) [.service] false (addressed h (doUnitClear h)) s)

end Sys2Proof.Machine
end

