-- ==== Sys2Proof/Machine/ExecLines.lean ====
section
/-! DEFINITION. The events of supplies, lines and load pins. -/

namespace Sys2Proof.Machine

/-- An event of an outside level: the level is taken whether or not the part is powered, its effect only when it is
(log entry 5). `f` is given the state before the level. -/
def lineEvent (set : State → State) (f : State → State → State) (s : State) : State :=
  if s.powered then event (fun old => f old (set old)) s else set s

/-- Change the lines. -/
def mapLines (f : Lines → Lines) (s : State) : State := { s with lines := f s.lines }

/-! ## Supplies and temperature -/

/-- The MATING debounce at a change of coupling supply presence (R61). -/
def debounceAtPresence (p : Bool) (s : State) : State :=
  if s.cc.state = .mating then
    if p then (if s.lines.cplSense then mapCc (fun c => { c with debounce := .running }) s else s)
    else mapCc (fun c => { c with debounce := .stopped, debounceDone := false }) s
  else s

/-- Every run in progress ends with a reason (R161). -/
def endAllRuns (reason : EndReason) (s : State) : State :=
  forEach (List.finRange 6) (fun o s => if running s o then endRun o reason s else s) s

/-- The runs follow the drive supply: where it is absent, each ends with SUPPLY (R161). -/
def judgeDrive (s : State) : State := if driveSupply s then s else endAllRuns .supply s

/-- The coupling supply becomes present or absent (R60, R61, R126, R161). -/
def presenceChange (p : Bool) (s : State) : State :=
  if s.lines.cplPresent = p then s
  else
    lineEvent (mapLines fun l => { l with cplPresent := p, cplAbove22 := l.cplAbove22 && p })
      (fun _ s => judgeDrive (rearbitrate (debounceAtPresence p s))) s

/-- CPL_SUP_PRESENCE_CHANGE. -/
def execCplSupPresenceChange (p : Bool) (s : State) : Host.Outcome State Fault Refusal := .next (presenceChange p s)

/-- SUPPLY_LOW is set or cleared (R142). -/
def supplyLowChange (low : Bool) (s : State) : State :=
  lineEvent (mapLines fun l => { l with cplAbove22 := !low })
    (fun _ s => rearbitrate { s with lamp := { s.lamp with supplyLow := low } }) s

/-- SUPPLY_LOW_CHANGE. -/
def execSupplyLowChange (low : Bool) (s : State) : Host.Outcome State Fault Refusal := .next (supplyLowChange low s)

/-- THERMAL_WARN is set or cleared (R143). -/
def thermalWarnChange (w : Bool) (s : State) : State :=
  lineEvent (mapLines fun l => { l with hot := w })
    (fun _ s => rearbitrate { s with lamp := { s.lamp with thermalWarn := w } }) s

/-- THERMAL_WARN_CHANGE. -/
def execThermalWarnChange (w : Bool) (s : State) : Host.Outcome State Fault Refusal := .next (thermalWarnChange w s)

/-- The drive supply changes: while the coupling supply is present, which keeps it present, this tells of BAT_SUP alone
(R161, log entry 6). -/
def driveSupplyChange (p : Bool) (s : State) : State :=
  lineEvent (fun s => { s with act := { s.act with batteryDrive := p } }) (fun _ s => judgeDrive s) s

/-- DRIVE_SUPPLY_CHANGE. -/
def execDriveSupplyChange (p : Bool) (s : State) : Host.Outcome State Fault Refusal := .next (driveSupplyChange p s)

/-! ## Coupling and rear sense -/

/-- The coupling controller at an assertion of CPL_SENSE (R62, R64, R65, R75). -/
def senseAsserted (s : State) : State :=
  match s.cc.state with
  | .quiet => enterMating s
  | .localAwake => enterMating s
  | .parting => returnFromParting s
  | _ => s

/-- CPL_SENSE_ASSERTED. -/
def execCplSenseAsserted (s : State) : Host.Outcome State Fault Refusal :=
  .next (lineEvent (mapLines fun l => { l with cplSense := true }) (fun _ s => senseAsserted s) s)

/-- The coupling controller at a negation of CPL_SENSE (R66, R74). -/
def senseNegated (s : State) : State :=
  match s.cc.state with
  | .mating => returnToBattery s
  | .probing => enterParting s
  | .serving => enterParting s
  | _ => s

/-- CPL_SENSE_NEGATED. -/
def execCplSenseNegated (s : State) : Host.Outcome State Fault Refusal :=
  .next (lineEvent (mapLines fun l => { l with cplSense := false }) (fun _ s => senseNegated s) s)

/-- REAR_SENSE_ASSERTED (R175). -/
def execRearSenseAsserted (s : State) : Host.Outcome State Fault Refusal :=
  .next (lineEvent (mapLines fun l => { l with rearSense := true }) (fun _ s => senseRear s) s)

/-- REAR_SENSE_NEGATED (R175). -/
def execRearSenseNegated (s : State) : Host.Outcome State Fault Refusal :=
  .next (lineEvent (mapLines fun l => { l with rearSense := false }) (fun _ s => loseRear s) s)

/-- FEED_OVERCURRENT (R175). -/
def execFeedOvercurrent (s : State) : Host.Outcome State Fault Refusal := .next (event overcurrent s)

/-! ## STOP_FORCE, SVC_HOLD -/

/-- STOP_FORCE_ASSERTED (R126). -/
def execStopForceAsserted (s : State) : Host.Outcome State Fault Refusal :=
  .next (lineEvent (mapLines fun l => { l with stopForce := true }) (fun _ s => rearbitrate s) s)

/-- STOP_FORCE_NEGATED (R126). -/
def execStopForceNegated (s : State) : Host.Outcome State Fault Refusal :=
  .next (lineEvent (mapLines fun l => { l with stopForce := false }) (fun _ s => rearbitrate s) s)

/-- SVC_HOLD_ASSERTED: it wakes QUIET, and the hold is judged (R62, R123, R124). -/
def execSvcHoldAsserted (s : State) : Host.Outcome State Fault Refusal :=
  .next
    (lineEvent (mapLines fun l => { l with svcHold := true })
      (fun old s => if s.cc.state = .quiet then wake s else arbAfter old s) s)

/-- SVC_HOLD_NEGATED (R125). -/
def execSvcHoldNegated (s : State) : Host.Outcome State Fault Refusal :=
  .next (lineEvent (mapLines fun l => { l with svcHold := false }) (fun old s => arbAfter old s) s)

/-! ## Shorts -/

/-- The record of a channel found shorted (R137 step 3). -/
def shortRec (r : LampRec) : LampRec := { r with loadClass := .short, last := 127 }

/-- A short detected on a driven channel (R137). -/
def shortDetected (ch : Fin 24) (s : State) : State :=
  let f : FaultState := if s.lamp.channels[ch].clearWindow = .running then .locked else .short
  endLitSteps ch .short 127 (rearbitrate (mirrorLamp ch shortRec (setFault ch f s)))

/-- The driver's own cut-out (R137): on a channel that is not driven it does nothing (R144). -/
def driverTrip (ch : Fin 24) (s : State) : State :=
  if s.lamp.channels[ch].driven then shortDetected ch s else s

/-- DRIVER_TRIP. -/
def execDriverTrip (ch : Fin 24) (s : State) : Host.Outcome State Fault Refusal := .next (event (driverTrip ch) s)

/-! ## Inputs, counters, stall current -/

/-- The debouncer at a change of the pin (R147). -/
def pinChanged (closed : Bool) (x : Input) : Input :=
  match x.level with
  | .unknown => { x with debounce := .running }
  | l => { x with debounce := if l = contactOf closed then .stopped else .running }

/-- A pin takes a level. -/
def setPin (i : Fin 10) (closed : Bool) (s : State) : State :=
  setInput i { s.input.inputs[i] with pinClosed := closed } s

/-- A switch pin changes (R147). -/
def switchPin (i : Fin 10) (closed : Bool) (s : State) : State :=
  if s.input.inputs[i].pinClosed = closed then s
  else
    lineEvent (setPin i closed)
      (fun _ s => if (sensorEntry s i).cls = .switch then setInput i (pinChanged closed s.input.inputs[i]) s else s) s

/-- SWITCH_PIN_CHANGE. -/
def execSwitchPinChange (i : Fin 10) (closed : Bool) (s : State) : Host.Outcome State Fault Refusal :=
  .next (switchPin i closed s)

/-- Toggle one phase of a counter's pair. -/
def togglePhase (p : Phase) (x : Counter) : Counter :=
  match p with
  | .a => { x with phaseA := !x.phaseA }
  | .b => { x with phaseB := !x.phaseB }

/-- The toggle follows the sequence A low B low, A high B low, A high B high, A low B high (R156). -/
def isUpStep (p : Phase) (x : Counter) : Bool :=
  match p with
  | .a => decide (x.phaseA = x.phaseB)
  | .b => decide (x.phaseA ≠ x.phaseB)

/-- The count after one step, saturating at 0 and 4095 (R156). -/
def stepCount (up : Bool) (n : Nat) : Nat := if up then min 4095 (n + 1) else n - 1

/-- One encoder step (R156, R167). -/
def encoderStep (c : Fin 2) (p : Phase) (s : State) : State :=
  let x := s.input.counters[c]
  lineEvent (fun s => setCounter c (togglePhase p x) s)
    (fun _ s => moveCounter c { togglePhase p x with count := stepCount (isUpStep p x) x.count } s) s

/-- ENCODER_STEP. -/
def execEncoderStep (c : Fin 2) (p : Phase) (s : State) : Host.Outcome State Fault Refusal :=
  .next (encoderStep c p s)

/-- Both phases changed: the count is kept and the counter UNREFERENCED (R156). -/
def phaseError (c : Fin 2) (s : State) : State :=
  let toggled := fun s : State => setCounter c (togglePhase .b (togglePhase .a s.input.counters[c])) s
  lineEvent toggled (fun _ s => moveCounter c { s.input.counters[c] with referenced := false } s) s

/-- PHASE_ERROR. -/
def execPhaseError (c : Fin 2) (s : State) : Host.Outcome State Fault Refusal := .next (phaseError c s)

/-- The drive current of a running output crosses the stall threshold (R168). -/
def stallCurrent (o : Fin 6) (above : Bool) (s : State) : State :=
  if running s o then setOut o { s.act.outs[o] with stallTimer := if above then .running else .stopped } s else s

/-- STALL_CURRENT_CHANGE. -/
def execStallCurrentChange (o : Fin 6) (above : Bool) (s : State) : Host.Outcome State Fault Refusal :=
  .next (event (stallCurrent o above) s)

end Sys2Proof.Machine
end

