-- ==== Sys2Proof/Machine/ExecTimers.lean ====
section
/-! DEFINITION. The expiries, and the ends of probe steps with what was measured. An expiry finds its timer running,
or does nothing (log entry 1). -/

namespace Sys2Proof.Machine

/-! ## Ports and chain -/

/-- A FRONT silence in PROBING or SERVING sets FRONT_SILENT and places the fallback claims (R121). -/
def frontFallback (s : State) : State :=
  if s.cc.state = .probing || s.cc.state = .serving then
    placeFallback { s with arb := { s.arb with frontSilent := true } }
  else s

/-- The owners at a silence of a master's port (R186, R120, R121, R170, R49, R77). -/
def silenced (m : Master) (s : State) : State :=
  let s := clearClaims (asClaimant m) (dropHolds m .silence (detach m s))
  match m with
  | .front => changeCoupling (fun s => frontFallback (mapCc (fun c => { c with motion := .unknown }) s)) s
  | .chassis => rearbitrate s
  | .service => setStaging none (rearbitrate s)

/-- A master port's silence timer expires (R186). -/
def portSilence (m : Master) (s : State) : State :=
  if (station s m).attached && decide ((station s m).silence = .running) then silenced m s else s

/-- PORT_SILENCE_EXPIRY. -/
def execPortSilenceExpiry (m : Master) (s : State) : Host.Outcome State Fault Refusal :=
  .next (event (portSilence m) s)

/-- The REAR silence timer expires in LINKED (R179). -/
def rearSilence (s : State) : State :=
  if s.chain.rear = .linked && s.chain.silence = .running then loseNeighbour s else s

/-- REAR_SILENCE_EXPIRY. -/
def execRearSilenceExpiry (s : State) : Host.Outcome State Fault Refusal := .next (event rearSilence s)

/-- The hello timer expires in FEEDING (R175). -/
def helloTimer (s : State) : State :=
  if s.chain.rear = .feeding && s.chain.helloTimer = .running then
    mapChain (fun c => { c with feedTry := false, rear := .sensed }) (feedOff s)
  else s

/-- HELLO_TIMER_EXPIRY. -/
def execHelloTimerExpiry (s : State) : Host.Outcome State Fault Refusal := .next (event helloTimer s)

/-- HELLO_REPEAT_EXPIRY (R180). -/
def execHelloRepeatExpiry (s : State) : Host.Outcome State Fault Refusal :=
  .next (event (fun s => if s.chain.helloRepeat = .running then sendHello s else s) s)

/-- SUMMARY_REPEAT_EXPIRY (R180). -/
def execSummaryRepeatExpiry (s : State) : Host.Outcome State Fault Refusal :=
  .next (event (fun s => if s.chain.summaryRepeat = .running then sendSummary s else s) s)

/-! ## Coupling controller -/

/-- IDLE_TIMER_EXPIRY (R63). -/
def execIdleTimerExpiry (s : State) : Host.Outcome State Fault Refusal :=
  .next (event (mapCc fun c => { c with idleExpired := true }) s)

/-- The MATING debounce ends (R65, R67). -/
def debounceEnds (s : State) : State :=
  if s.cc.state = .mating && s.cc.debounce = .running then
    if s.plan.commit.isSome then mapCc (fun c => { c with debounce := .stopped, debounceDone := true }) s
    else enterProbing .mating s
  else s

/-- DEBOUNCE_COMPLETE. -/
def execDebounceComplete (s : State) : Host.Outcome State Fault Refusal := .next (event debounceEnds s)

/-- The bring-up deadline expires (R71). -/
def deadline (s : State) : State :=
  if s.cc.state = .probing && s.cc.deadline = .running then deadlineExpires s else s

/-- BRING_UP_DEADLINE_EXPIRY. -/
def execBringUpDeadlineExpiry (s : State) : Host.Outcome State Fault Refusal := .next (event deadline s)

/-- The parting hold expires: the teardown, its appends, and then the FRONT queue (R76, R36). -/
def partingHold (s : State) : State :=
  if s.powered && s.cc.state = .parting && s.cc.partingHold = .running then resetFrontQueue (event teardown s) else s

/-- PARTING_HOLD_EXPIRY. -/
def execPartingHoldExpiry (s : State) : Host.Outcome State Fault Refusal := .next (partingHold s)

/-- The nonvolatile write ends (R53, R67). -/
def commitEnds (s : State) : State :=
  match s.plan.commit with
  | none => s
  | some p =>
    let s := { s with plan := { s.plan with stored := some (StoredPlan.of p), commit := none } }
    if s.cc.state = .mating && s.cc.debounceDone && s.lines.cplSense && s.lines.cplPresent then enterProbing .mating s
    else s

/-- COMMIT_COMPLETION. -/
def execCommitCompletion (s : State) : Host.Outcome State Fault Refusal := .next (event commitEnds s)

/-! ## Lamp block -/

/-- The phase timer expires (R132). -/
def phaseChange (s : State) : State :=
  match s.lamp.timebase with
  | .stopped => s
  | .on => refreshDriven (setTimebase .off .running s)
  | .off => refreshDriven (setTimebase .on .running s)

/-- FLASH_PHASE_CHANGE. -/
def execFlashPhaseChange (s : State) : Host.Outcome State Fault Refusal := .next (event phaseChange s)

/-- A channel enters OPEN or returns to NORMAL, its record's last measured band taken from the sample (R136). -/
def openChange (ch : Fin 24) (f : FaultState) (tenths : Nat) (s : State) : State :=
  let band := scaledBand tenths s.lamp.channels[ch].command.level
  rearbitrate (mirrorLamp ch (fun r => { r with last := band }) (setFault ch f s))

/-- The count of a low sample (R135). -/
def countLow (ch : Fin 24) (tenths : Nat) (s : State) : State :=
  let c := s.lamp.channels[ch]
  let n := min 3 (c.lowCount + 1)
  if n = 3 && c.fault = .normal && !openMaskInForce s ch then openChange ch .opened tenths s
  else setChannel ch { c with lowCount := n, normalCount := 0 } s

/-- The count of a normal sample (R135). -/
def countNormal (ch : Fin 24) (tenths : Nat) (s : State) : State :=
  let c := s.lamp.channels[ch]
  let n := min 3 (c.normalCount + 1)
  if n = 3 && c.fault = .opened then openChange ch .normal tenths s
  else setChannel ch { c with normalCount := n, lowCount := 0 } s

/-- A sample counted toward open detection (R135). -/
def countSample (ch : Fin 24) (tenths : Nat) (s : State) : State :=
  match lampRecord s ch with
  | none => s
  | some r =>
    if r.expected = 0 then s
    else if isLowSample tenths r.expected s.lamp.channels[ch].command.level then countLow ch tenths s
    else countNormal ch tenths s

/-- An ON-sample, in tenths of a unit (R131). -/
def onSample (ch : Fin 24) (tenths : Nat) (s : State) : State :=
  if s.lamp.channels[ch].driven then
    if isShortSample tenths then shortDetected ch s
    else
      let band := scaledBand tenths s.lamp.channels[ch].command.level
      endLitSteps ch (classOfBand band) band (countSample ch tenths s)
  else s

/-- ON_SAMPLE. -/
def execOnSample (ch : Fin 24) (tenths : Nat) (s : State) : Host.Outcome State Fault Refusal :=
  .next (event (onSample ch tenths) s)

/-- CLEAR_WINDOW_EXPIRY (R139). -/
def execClearWindowExpiry (ch : Fin 24) (s : State) : Host.Outcome State Fault Refusal :=
  .next (event (fun s => setChannel ch { s.lamp.channels[ch] with clearWindow := .stopped } s) s)

/-! ## Inputs -/

/-- The first settle of an input (R150). -/
def firstSettle (i : Fin 10) (s : State) : State :=
  let x := s.input.inputs[i]
  let l := contactOf x.pinClosed
  let fill := s.cc.state = .quiet && isWake s i && x.snapshot = some .unknown
  senseScan
    (setInput i
      { x with
        level := l, settled := true, debounce := .stopped, snapshot := if fill then some l else x.snapshot } s)

/-- A SENSOR record of a debounced change (R147, R148 step 1). -/
def changedRec (closed : Bool) (r : SensorRec) : SensorRec :=
  { r with
    raw := contactValue (contactOf closed), value := contactValue (contactOf closed), band := .outside,
    changeCount := r.changeCount + 1, state := .valid }

/-- A debounced change of the input whose creation is pending replaces the held level and advances the held count (R148
step 2). -/
def holdAgain (i : Fin 10) (closed : Bool) (s : State) : State :=
  if isPending s .coupling && s.cc.heldSwitch.any (fun h => decide (h.input = i)) then
    mapCc
      (fun c => { c with heldSwitch := c.heldSwitch.map fun h => { h with closed := closed, count := h.count + 1 } }) s
  else s

/-- The creation of a record the coupling controller requests at a debounced change, unless one is pending (R148
step 2). -/
def requestSwitch (i : Fin 10) (closed : Bool) (s : State) : State :=
  if isPending s .coupling || decide ((sensorEntry s i).cls = .unused) then s
  else
    let h : HeldSwitch := ⟨i, closed, 1, (sensorEntry s i).fn⟩
    let p := requestAlloc ⟨.coupling, .sensor i, 1, none⟩
      (fun old => some (heldSwitchContent h (old.bind Content.sensorRec))) s
    if p.2 then mapCc (fun c => { c with heldSwitch := some h }) p.1 else p.1

/-- A debounced change of an input (R148). -/
def debouncedChange (i : Fin 10) (s : State) : State :=
  let x := s.input.inputs[i]
  let closed := x.pinClosed
  let s := holdAgain i closed (setInput i { x with level := contactOf closed, debounce := .stopped } s)
  let s :=
    match liveRecord s (.sensor i) with
    | some (t, ⟨_, .sensor _ r⟩) => updateRec t (.sensor i (changedRec closed r)) false s
    | _ => requestSwitch i closed s
  let s := senseScan s
  if s.cc.state = .quiet && isWake s i && wakeChange s.input.inputs[i] then wake s else s

/-- A switch input's debounce timer expires (R147). -/
def debounceExpiry (i : Fin 10) (s : State) : State :=
  if s.input.inputs[i].debounce = .running then
    if s.input.inputs[i].settled then debouncedChange i s else firstSettle i s
  else s

/-- SWITCH_DEBOUNCE_EXPIRY. -/
def execSwitchDebounceExpiry (i : Fin 10) (s : State) : Host.Outcome State Fault Refusal :=
  .next (event (debounceExpiry i) s)

/-! ## Actuators -/

/-- The run timer reaches the run limit (R168). -/
def runTimer (o : Fin 6) (s : State) : State :=
  if running s o && s.act.outs[o].runTimer = .running then endRun o .timeout s else s

/-- RUN_TIMER_EXPIRY. -/
def execRunTimerExpiry (o : Fin 6) (s : State) : Host.Outcome State Fault Refusal := .next (event (runTimer o) s)

/-- The stall timer reaches 200 ms (R168). -/
def stallTimer (o : Fin 6) (s : State) : State :=
  if running s o && s.act.outs[o].stallTimer = .running then endRun o .stall s else s

/-- STALL_TIMER_EXPIRY. -/
def execStallTimerExpiry (o : Fin 6) (s : State) : Host.Outcome State Fault Refusal := .next (event (stallTimer o) s)

/-! ## Sequencers -/

/-- The cycle timer reaches the period: back to the first subject (R88). -/
def cycleTimer (n : Fin 4) (s : State) : State :=
  let q := s.probe.seqs[n]
  match q.program with
  | none => s
  | some p =>
    if q.cycleTimer = .running then
      reach n false
        (setSeq n
          { q with
            cycleTimer := .stopped, tc := false, index := p.list.head?, remaining := p.list.length,
            status := .stepping } s)
    else s

/-- CYCLE_TIMER_EXPIRY. -/
def execCycleTimerExpiry (n : Fin 4) (s : State) : Host.Outcome State Fault Refusal := .next (event (cycleTimer n) s)

/-- The end of a step by the sequencer that holds the source (R93, R96, R97). -/
def byHolder (f : Fin 4 → State → State) (s : State) : State := s.probe.holder.elim s fun n => f n s

/-- A dark CLASSIFY ends (R93). -/
def darkClassify (cls : LoadClass) (band : Nat) (n : Fin 4) (s : State) : State :=
  let q := s.probe.seqs[n]
  match lampOf q with
  | some ch => if kindOf q = some .classify then endStep n (.lamp ch cls (bandOf cls band)) s else s
  | none => s

/-- DARK_CLASSIFY_END. -/
def execDarkClassifyEnd (cls : LoadClass) (band : Nat) (s : State) : Host.Outcome State Fault Refusal :=
  .next (event (byHolder (darkClassify cls band)) s)

/-- A dark VERIFY ends (R93). -/
def darkVerify (cls : LoadClass) (n : Fin 4) (s : State) : State :=
  let q := s.probe.seqs[n]
  match lampOf q with
  | some ch => if kindOf q = some .verify then endVerify n ch cls s else s
  | none => s

/-- DARK_VERIFY_END. -/
def execDarkVerifyEnd (cls : LoadClass) (s : State) : Host.Outcome State Fault Refusal :=
  .next (event (byHolder (darkVerify cls)) s)

/-- A CHECK ends (R97). -/
def checkEnds (r : CheckResult) (n : Fin 4) (s : State) : State :=
  (outputOf s.probe.seqs[n]).elim s fun o => endStep n (.actuator o r) s

/-- CHECK_END. -/
def execCheckEnd (r : CheckResult) (s : State) : Host.Outcome State Fault Refusal :=
  .next (event (byHolder (checkEnds r)) s)

/-- Result of a resistive reading: OPEN without a response, SHORT below 10, else VALID (R96). -/
def readingResult : Option Nat → SensorResult
  | none => .opened
  | some raw => if raw < 10 then .short raw else .valid raw

/-- A resistive MEASURE ends (R96). One that a plan load finds waiting or in flight goes on although the load made its input
SWITCH, and its reading is written (DESIGN CHOICE, log entry 54). -/
def measureEnds (r : Option Nat) (n : Fin 4) (s : State) : State :=
  (inputOf s.probe.seqs[n]).elim s fun i => endStep n (.sensor i (readingResult r)) s

/-- RESISTIVE_MEASURE_END. -/
def execResistiveMeasureEnd (r : Option Nat) (s : State) : Host.Outcome State Fault Refusal :=
  .next (event (byHolder (measureEnds r)) s)

end Sys2Proof.Machine
end

