-- ==== Sys2Proof/Machine/ExecFrames.lean ====
section
/-! DEFINITION. Frames: the first byte, a frame judged at the gap and routed, the start and end of a sending, and the
frames of the unit behind (chapters 10 and 11). -/

namespace Sys2Proof.Machine

/-! ## The first byte -/

/-- The first byte of a frame: it opens the receive buffer, and on CHASSIS or SERVICE it wakes QUIET (R185, R62). A frame
that begins while the part is sending on the line is corrupted. -/
def firstByte (p : Port) (b : Byte) (s : State) : State :=
  let s := setLine p { line s p with rx := [b], collided := (line s p).sending.isSome } s
  if p = .chassis || p = .service then wake s else s

/-- FRAME_FIRST_BYTE. -/
def execFrameFirstByte (p : Port) (b : Byte) (s : State) : Host.Outcome State Fault Refusal :=
  .next (event (firstByte p b) s)

/-! ## A request that a frame carries -/

/-- A request command taken by its own rule (R188 step 5); a broadcast of some changes nothing (R189). -/
def runRequest (h : ReqHdr) : Instr → State → State
  | .ping _, s => doPing h s
  | .unitStatus _, s => doUnitStatus h s
  | .unitAck _, s => doUnitAck h s
  | .funcStatus _ fn, s => doFuncStatus h fn s
  | .noticeFetch _, s => addressed h (doNoticeFetch h) s
  | .noticeFilter _ f, s => doNoticeFilter h f s
  | .noticeResync _, s => addressed h (doNoticeResync h) s
  | .recRead _ t, s => doRecRead h t s
  | .recList _ k t, s => doRecList h k t s
  | .claim _ fn m l, s => doClaim h fn m l s
  | .release _ fn, s => doRelease h fn s
  | .releaseAll _, s => doReleaseAll h s
  | .actTake _ o, s => addressed h (doActTake h o) s
  | .actMoveDirection _ o d, s => addressed h (doActMove h o (.direction d)) s
  | .actMoveTarget _ o t, s => addressed h (doActMove h o (.target t)) s
  | .actMoveEnergise _ o, s => addressed h (doActMove h o .energise) s
  | .actStop _ o, s => doActStop h o s
  | .actGive _ o, s => addressed h (doActGive h o) s
  | .unitAssign _ n, s => addressed h (doUnitAssign h n) s
  | .motion _ v, s => doMotion h v s
  | .phase _, s => doPhase h s
  | .faultClear _ t, s => doFaultClear h t s
  | .reprobe _, s => doReprobe h s
  | .unitSet _ m, s => addressed h (doUnitSet h m) s
  | .unitClear _, s => addressed h (doUnitClear h) s
  | .recRetire _ t, s => addressed h (doRecRetire h t) s
  | .recEditOpenMask _ t b, s => addressed h (doRecEditOpenMask h t b) s
  | .recEditCalibration _ t e, s => addressed h (doRecEditCalibration h t e) s
  | .planOpen _, s => addressed h (doPlanOpen h) s
  | .planWrite _ k e, s => addressed h (doPlanWrite h k e) s
  | .planCommit _ n, s => addressed h (doPlanCommit h n) s
  | .planDiscard _, s => addressed h (doPlanDiscard h) s
  | .planRead _ c k, s => addressed h (doPlanRead h c k) s
  | .probeRun _ n a, s => addressed h (doProbeRun h n a) s
  | .probeStep _ n, s => doProbeStep h n s
  | .probeMask _ n, s => addressed h (doProbeMask h n) s
  | .probeUnmask _ n, s => addressed h (doProbeUnmask h n) s
  | .probeStop _ n, s => addressed h (doProbeStop h n) s
  | .probeStatus _ n, s => doProbeStatus h n s
  | _, s => s

/-- What a decoded body does at step 5 of R188. -/
def runDecoded (h : ReqHdr) : Decoded → State → State
  | .request c, s => runRequest h c s
  | .editOther t, s => addressed h (doRecEditOther h t) s
  | .writeOther, s => addressed h (doPlanWriteWith h fun _ => none) s
  | .badArgument, s => reply h .badArg s
  | .badLength, s => refuseEarly h .badArg s

/-- A request routed to be taken here (R188). -/
def judgeRequest (h : ReqHdr) (f : RxFrame) (s : State) : State :=
  if !h.broadcast && (station s h.station).outstanding then refuseEarly h .busy s
  else
    match codeStations f.code with
    | none => refuseEarly h .badArg s
    | some sts =>
      let d := requestOf h f.code f.payload
      if !sts.contains h.station then refuseEarly h .forbidden s
      else if d = .badLength then refuseEarly h .badArg s
      else runDecoded h d (if h.broadcast then s else setOutstanding h.station true s)

/-! ## Routing (R181, R182, R187) -/

/-- The header of a request frame of a master. -/
def headerOf (m : Master) (f : RxFrame) : ReqHdr :=
  { station := m, broadcast := decide (f.dest = 15), src := f.src, corr := f.corr }

/-- A FRONT request for a unit further back (R181). -/
def forwardDown (h : ReqHdr) (bs : List Byte) (s : State) : State :=
  if s.chain.rear ≠ .linked then refuseEarly h .unreachable s
  else if s.chain.down.length < Config.forwardDepth then joinDown (.bytes bs) s
  else refuseEarly h .busy s

/-- A well-formed frame on FRONT (R187, R181). -/
def routeFront (f : RxFrame) (bs : List Byte) (s : State) : State :=
  let h := headerOf .front f
  if f.kind ≠ .request then s
  else if f.dest = 0 || f.dest = 15 || f.dest = s.chain.own then
    judgeRequest h f (passDown h (.bytes bs) (h.broadcast || decide (f.code = codePhase)) s)
  else if s.chain.own < f.dest && decide (f.dest ≤ 4) then forwardDown h bs s
  else s

/-- A well-formed frame on CHASSIS or SERVICE (R187). -/
def routeMaster (m : Master) (f : RxFrame) (s : State) : State :=
  if f.kind = .request && (f.dest = 0 || f.dest = 15 || f.dest = s.chain.own) then
    judgeRequest (headerOf m f) f s
  else s

/-- A frame of kind CHAIN on REAR (R177, R182). -/
def routeChain (f : RxFrame) (bs : List Byte) (s : State) : State :=
  if f.code = codeHello then takeHello (Config.reportOf f.payload) s
  else if f.code = codeSummary then takeSummary f.src (Config.reportOf f.payload) (.bytes bs) s
  else s

/-- The result of a REPLY to this unit's UNIT_ASSIGN is DONE (R177). -/
def takeOwnReply (code : Byte) (s : State) : State := (resultOf code).elim s fun r => takeAssignReply r s

/-- A well-formed frame on REAR (R182, R187). -/
def routeRear (f : RxFrame) (bs : List Byte) (s : State) : State :=
  let s := rearHeard s
  match f.kind with
  | .chain => routeChain f bs s
  | .reply => if f.dest = s.chain.own then takeOwnReply f.code s else passUp (.bytes bs) s
  | .notice => passUp (.bytes bs) s
  | .request => s

/-- A well-formed frame, by its port. -/
def route (p : Port) (f : RxFrame) (bs : List Byte) (s : State) : State :=
  match p with
  | .front => arrive .front (routeFront f bs) s
  | .chassis => arrive .chassis (routeMaster .chassis f) s
  | .service => arrive .service (routeMaster .service f) s
  | .rear => routeRear f bs s

/-- A collected frame is judged at the gap: discarded, or routed (R185). -/
def frameReceived (p : Port) (bs : List Byte) (s : State) : State :=
  let s' := frameJudged p s
  if (line s p).collided then s' else (parseFrame p bs).elim s' fun f => route p f bs s'

/-- FRAME_RECEIVED. -/
def execFrameReceived (p : Port) (bs : List Byte) (s : State) : Host.Outcome State Fault Refusal :=
  .next (event (frameReceived p bs) s)

/-! ## Sending (R183, R190) -/

/-- The forward queue of a port. -/
def forwardQueue (s : State) : Port → List FwdFrame
  | .front => s.chain.up
  | .rear => s.chain.down
  | _ => []

/-- An idle line, neither sending nor receiving, begins the next frame: this unit's own before the forward queue's head
(R183, R190). -/
def sendStart (p : Port) (s : State) : State :=
  let l := line s p
  if l.sending.isSome || !l.rx.isEmpty then s
  else
    match l.waiting, forwardQueue s p with
    | f :: fs, _ => setLine p { l with waiting := fs, sending := some (.own f) } s
    | [], f :: _ => setLine p { l with sending := some (.forward f) } s
    | [], [] => s

/-- FRAME_SEND_START. -/
def execFrameSendStart (p : Port) (s : State) : Host.Outcome State Fault Refusal := .next (event (sendStart p) s)

/-- A forwarded frame leaves its queue when its sending ends (R183). -/
def popForward (p : Port) (s : State) : State :=
  match p with
  | .front => mapChain (fun c => { c with up := c.up.tail }) s
  | .rear => mapChain (fun c => { c with down := c.down.tail }) s
  | _ => s

/-- The sending of a frame ends (R183, R188). -/
def sendEnd (p : Port) (s : State) : State :=
  let l := line s p
  let s := setLine p { l with sending := none } s
  match l.sending with
  | some (.own f) => if f.closes then setOutstanding f.station false s else s
  | some (.forward _) => popForward p s
  | _ => s

/-- FRAME_SEND_END. -/
def execFrameSendEnd (p : Port) (s : State) : Host.Outcome State Fault Refusal := .next (event (sendEnd p) s)

/-! ## Frames of the unit behind -/

/-- A row of the unit behind: its frame has been judged well-formed on REAR (R179, R185, log entry 7). -/
def rearEvent (f : State → State) (s : State) : State := event (fun s => f (rearHeard (frameJudged .rear s))) s

/-- HELLO on REAR (R177). -/
def execHello (r : Report) (s : State) : Host.Outcome State Fault Refusal := .next (rearEvent (takeHello r) s)

/-- The reply to this unit's UNIT_ASSIGN (R177). -/
def execUnitAssignReply (r : Result) (s : State) : Host.Outcome State Fault Refusal :=
  .next (rearEvent (takeAssignReply r) s)

/-- SUMMARY on REAR (R177, R182). -/
def execSummary (src : Nat) (r : Report) (s : State) : Host.Outcome State Fault Refusal :=
  .next (rearEvent (takeSummary src r (.command (.summary src r))) s)

/-- A reply of another unit or a notice on REAR (R182). -/
def execUpstreamForward (bs : List Byte) (s : State) : Host.Outcome State Fault Refusal :=
  .next (rearEvent (passUp (.bytes bs)) s)

end Sys2Proof.Machine
end

