-- ==== Sys2Proof/Machine/Dispatch.lean ====
section
/-! DEFINITION. The dispatch: one arm for each constructor of `Instr`, each a direct call of its meaning. -/

namespace Sys2Proof.Machine

/-- The effect of a command on everything but the queue. -/
def exec (i : Instr) (s : State) : Host.Outcome State Fault Refusal :=
  match i with
  | .supplyReset v => Sys2Proof.Machine.execSupplyReset v s
  | .powerLoss => Sys2Proof.Machine.execPowerLoss s
  | .cplSupPresenceChange present => Sys2Proof.Machine.execCplSupPresenceChange present s
  | .supplyLowChange low => Sys2Proof.Machine.execSupplyLowChange low s
  | .thermalWarnChange warn => Sys2Proof.Machine.execThermalWarnChange warn s
  | .driveSupplyChange present => Sys2Proof.Machine.execDriveSupplyChange present s
  | .cplSenseAsserted => Sys2Proof.Machine.execCplSenseAsserted s
  | .cplSenseNegated => Sys2Proof.Machine.execCplSenseNegated s
  | .rearSenseAsserted => Sys2Proof.Machine.execRearSenseAsserted s
  | .rearSenseNegated => Sys2Proof.Machine.execRearSenseNegated s
  | .stopForceAsserted => Sys2Proof.Machine.execStopForceAsserted s
  | .stopForceNegated => Sys2Proof.Machine.execStopForceNegated s
  | .svcHoldAsserted => Sys2Proof.Machine.execSvcHoldAsserted s
  | .svcHoldNegated => Sys2Proof.Machine.execSvcHoldNegated s
  | .feedOvercurrent => Sys2Proof.Machine.execFeedOvercurrent s
  | .driverTrip ch => Sys2Proof.Machine.execDriverTrip ch s
  | .switchPinChange pin closed => Sys2Proof.Machine.execSwitchPinChange pin closed s
  | .encoderStep c phase => Sys2Proof.Machine.execEncoderStep c phase s
  | .phaseError c => Sys2Proof.Machine.execPhaseError c s
  | .stallCurrentChange o above => Sys2Proof.Machine.execStallCurrentChange o above s
  | .frameFirstByte p b => Sys2Proof.Machine.execFrameFirstByte p b s
  | .frameReceived p bytes => Sys2Proof.Machine.execFrameReceived p bytes s
  | .frameSendStart p => Sys2Proof.Machine.execFrameSendStart p s
  | .frameSendEnd p => Sys2Proof.Machine.execFrameSendEnd p s
  | .ping h => Sys2Proof.Machine.execPing h s
  | .unitStatus h => Sys2Proof.Machine.execUnitStatus h s
  | .unitAck h => Sys2Proof.Machine.execUnitAck h s
  | .funcStatus h fn => Sys2Proof.Machine.execFuncStatus h fn s
  | .noticeFetch h => Sys2Proof.Machine.execNoticeFetch h s
  | .noticeFilter h set => Sys2Proof.Machine.execNoticeFilter h set s
  | .noticeResync h => Sys2Proof.Machine.execNoticeResync h s
  | .recRead h tag => Sys2Proof.Machine.execRecRead h tag s
  | .recList h kind start => Sys2Proof.Machine.execRecList h kind start s
  | .claim h fn mode level => Sys2Proof.Machine.execClaim h fn mode level s
  | .release h fn => Sys2Proof.Machine.execRelease h fn s
  | .releaseAll h => Sys2Proof.Machine.execReleaseAll h s
  | .actTake h out => Sys2Proof.Machine.execActTake h out s
  | .actMoveDirection h out dir => Sys2Proof.Machine.execActMoveDirection h out dir s
  | .actMoveTarget h out target => Sys2Proof.Machine.execActMoveTarget h out target s
  | .actMoveEnergise h out => Sys2Proof.Machine.execActMoveEnergise h out s
  | .actStop h out => Sys2Proof.Machine.execActStop h out s
  | .actGive h out => Sys2Proof.Machine.execActGive h out s
  | .unitAssign h number => Sys2Proof.Machine.execUnitAssign h number s
  | .motion h value => Sys2Proof.Machine.execMotion h value s
  | .phase h => Sys2Proof.Machine.execPhase h s
  | .faultClear h target => Sys2Proof.Machine.execFaultClear h target s
  | .reprobe h => Sys2Proof.Machine.execReprobe h s
  | .unitSet h mode => Sys2Proof.Machine.execUnitSet h mode s
  | .unitClear h => Sys2Proof.Machine.execUnitClear h s
  | .recRetire h tag => Sys2Proof.Machine.execRecRetire h tag s
  | .recEditOpenMask h tag set => Sys2Proof.Machine.execRecEditOpenMask h tag set s
  | .recEditCalibration h tag edit => Sys2Proof.Machine.execRecEditCalibration h tag edit s
  | .planOpen h => Sys2Proof.Machine.execPlanOpen h s
  | .planWrite h index entry => Sys2Proof.Machine.execPlanWrite h index entry s
  | .planCommit h ident => Sys2Proof.Machine.execPlanCommit h ident s
  | .planDiscard h => Sys2Proof.Machine.execPlanDiscard h s
  | .planRead h copy index => Sys2Proof.Machine.execPlanRead h copy index s
  | .probeRun h sq args => Sys2Proof.Machine.execProbeRun h sq args s
  | .probeStep h sq => Sys2Proof.Machine.execProbeStep h sq s
  | .probeMask h sq => Sys2Proof.Machine.execProbeMask h sq s
  | .probeUnmask h sq => Sys2Proof.Machine.execProbeUnmask h sq s
  | .probeStop h sq => Sys2Proof.Machine.execProbeStop h sq s
  | .probeStatus h sq => Sys2Proof.Machine.execProbeStatus h sq s
  | .hello r => Sys2Proof.Machine.execHello r s
  | .unitAssignReply result => Sys2Proof.Machine.execUnitAssignReply result s
  | .summary src r => Sys2Proof.Machine.execSummary src r s
  | .upstreamForward bytes => Sys2Proof.Machine.execUpstreamForward bytes s
  | .portSilenceExpiry m => Sys2Proof.Machine.execPortSilenceExpiry m s
  | .rearSilenceExpiry => Sys2Proof.Machine.execRearSilenceExpiry s
  | .helloTimerExpiry => Sys2Proof.Machine.execHelloTimerExpiry s
  | .helloRepeatExpiry => Sys2Proof.Machine.execHelloRepeatExpiry s
  | .summaryRepeatExpiry => Sys2Proof.Machine.execSummaryRepeatExpiry s
  | .idleTimerExpiry => Sys2Proof.Machine.execIdleTimerExpiry s
  | .debounceComplete => Sys2Proof.Machine.execDebounceComplete s
  | .bringUpDeadlineExpiry => Sys2Proof.Machine.execBringUpDeadlineExpiry s
  | .partingHoldExpiry => Sys2Proof.Machine.execPartingHoldExpiry s
  | .commitCompletion => Sys2Proof.Machine.execCommitCompletion s
  | .cycleTimerExpiry n => Sys2Proof.Machine.execCycleTimerExpiry n s
  | .flashPhaseChange => Sys2Proof.Machine.execFlashPhaseChange s
  | .onSample ch tenths => Sys2Proof.Machine.execOnSample ch tenths s
  | .clearWindowExpiry ch => Sys2Proof.Machine.execClearWindowExpiry ch s
  | .switchDebounceExpiry pin => Sys2Proof.Machine.execSwitchDebounceExpiry pin s
  | .runTimerExpiry o => Sys2Proof.Machine.execRunTimerExpiry o s
  | .stallTimerExpiry o => Sys2Proof.Machine.execStallTimerExpiry o s
  | .darkClassifyEnd cls band => Sys2Proof.Machine.execDarkClassifyEnd cls band s
  | .darkVerifyEnd cls => Sys2Proof.Machine.execDarkVerifyEnd cls s
  | .checkEnd result => Sys2Proof.Machine.execCheckEnd result s
  | .resistiveMeasureEnd response => Sys2Proof.Machine.execResistiveMeasureEnd response s

end Sys2Proof.Machine
end

