-- ==== Sys2Proof/Safety.lean ====
section
/-! DEFINITION. The words the statements are written in: the pieces of the state and what a frame leaves alone, how a
request is met and answered, and the invariants every step keeps. -/

namespace Sys2Proof.Machine

/-! ## Pieces of the state -/

/-- The pieces a frame speaks of. -/
inductive Piece where
  | powered | lines
  | state | coupling | motion | causes | events | idle
  | store | notice
  | planActive | planStaging | planStored | fnStatus
  | claims | resolution | frontSilent
  | drive | faults | lampFlags
  | seqs | source | probeMode
  | inputs | counters | sense
  | outs | driveSupply
  | number | rear | repeats | forward
  | stations | masterFrames | rearFrames
  | fresh | handed | queue
  deriving DecidableEq, Repr

/-- The drive of a lamp channel: everything but its fault state and clear window. -/
def driveOf (c : LampChannel) : Cmd × Bool × Timer × Nat × Nat :=
  (c.command, c.driven, c.sampleTimer, c.lowCount, c.normalCount)

/-- Two states agree in a piece. -/
def Piece.same (s t : State) : Piece → Prop
  | .powered => t.powered = s.powered
  | .lines => t.lines = s.lines
  | .state => t.cc.state = s.cc.state
  | .coupling =>
    { t.cc with
      state := s.cc.state, motion := s.cc.motion, causes := s.cc.causes, supplyEvent := s.cc.supplyEvent, clearEvent := s.cc.clearEvent,
      idleExpired := s.cc.idleExpired } = s.cc
  | .motion => t.cc.motion = s.cc.motion
  | .causes => t.cc.causes = s.cc.causes
  | .events => t.cc.supplyEvent = s.cc.supplyEvent ∧ t.cc.clearEvent = s.cc.clearEvent
  | .idle => t.cc.idleExpired = s.cc.idleExpired
  | .store => t.store = s.store
  | .notice => t.notice = s.notice
  | .planActive => t.plan.active = s.plan.active
  | .planStaging => t.plan.staging = s.plan.staging
  | .planStored => t.plan.stored = s.plan.stored ∧ t.plan.commit = s.plan.commit
  | .fnStatus => t.plan.status = s.plan.status
  | .claims => t.arb.claims = s.arb.claims
  | .resolution => t.arb.resolved = s.arb.resolved ∧ t.arb.shed = s.arb.shed
  | .frontSilent => t.arb.frontSilent = s.arb.frontSilent
  | .drive =>
    (∀ ch : Fin 24, driveOf t.lamp.channels[ch] = driveOf s.lamp.channels[ch]) ∧
      t.lamp.timebase = s.lamp.timebase ∧ t.lamp.phaseTimer = s.lamp.phaseTimer
  | .faults =>
    ∀ ch : Fin 24,
      t.lamp.channels[ch].fault = s.lamp.channels[ch].fault ∧
        t.lamp.channels[ch].clearWindow = s.lamp.channels[ch].clearWindow
  | .lampFlags => t.lamp.supplyLow = s.lamp.supplyLow ∧ t.lamp.thermalWarn = s.lamp.thermalWarn
  | .seqs => t.probe.seqs = s.probe.seqs
  | .source => t.probe.holder = s.probe.holder ∧ t.probe.last = s.probe.last
  | .probeMode => t.probe.mode = s.probe.mode
  | .inputs => t.input.inputs = s.input.inputs
  | .counters => t.input.counters = s.input.counters
  | .sense => t.input.sense = s.input.sense
  | .outs => t.act.outs = s.act.outs
  | .driveSupply => t.act.batteryDrive = s.act.batteryDrive
  | .number => t.chain.own = s.chain.own
  | .rear =>
    t.chain.rear = s.chain.rear ∧ t.chain.bar = s.chain.bar ∧ t.chain.feedTry = s.chain.feedTry ∧
      t.chain.helloTimer = s.chain.helloTimer ∧ t.chain.silence = s.chain.silence ∧
      t.chain.assignOut = s.chain.assignOut ∧ t.chain.assigned = s.chain.assigned ∧ t.chain.report = s.chain.report
  | .repeats => t.chain.helloRepeat = s.chain.helloRepeat ∧ t.chain.summaryRepeat = s.chain.summaryRepeat
  | .forward => t.chain.down = s.chain.down ∧ t.chain.up = s.chain.up ∧ t.chain.upOverrun = s.chain.upOverrun
  | .stations => t.port.stations = s.port.stations
  | .masterFrames => ∀ m : Master, line t (masterPort m) = line s (masterPort m)
  | .rearFrames => line t .rear = line s .rear
  | .fresh => t.freshCount = s.freshCount
  | .handed => t.work = s.work
  | .queue => t.pending = s.pending

/-- Every piece outside the list is as before. -/
def Frame (changed : List Piece) (s t : State) : Prop := ∀ p : Piece, p ∉ changed → Piece.same s t p

/-- The pieces that a new resolution over all channels can change (R114 to R119, R130, R132, R133). -/
def arbitrated : List Piece := [.resolution, .drive, .rearFrames]

/-! ## Requests -/

/-- Header and permitted masters of a request command (11.5). -/
def requestParts : Instr → Option (ReqHdr × List Master)
  | .ping h => some (h, allMasters)
  | .unitStatus h => some (h, allMasters)
  | .unitAck h => some (h, allMasters)
  | .funcStatus h _ => some (h, allMasters)
  | .noticeFetch h => some (h, allMasters)
  | .noticeFilter h _ => some (h, allMasters)
  | .noticeResync h => some (h, allMasters)
  | .recRead h _ => some (h, allMasters)
  | .recList h _ _ => some (h, allMasters)
  | .claim h _ _ _ => some (h, allMasters)
  | .release h _ => some (h, allMasters)
  | .releaseAll h => some (h, allMasters)
  | .actTake h _ => some (h, allMasters)
  | .actMoveDirection h _ _ => some (h, allMasters)
  | .actMoveTarget h _ _ => some (h, allMasters)
  | .actMoveEnergise h _ => some (h, allMasters)
  | .actStop h _ => some (h, allMasters)
  | .actGive h _ => some (h, allMasters)
  | .unitAssign h _ => some (h, [.front])
  | .motion h _ => some (h, [.front])
  | .phase h => some (h, [.front])
  | .faultClear h _ => some (h, [.front, .service])
  | .reprobe h => some (h, [.front, .service])
  | .unitSet h _ => some (h, [.service])
  | .unitClear h => some (h, [.service])
  | .recRetire h _ => some (h, [.service])
  | .recEditOpenMask h _ _ => some (h, [.service])
  | .recEditCalibration h _ _ => some (h, [.service])
  | .planOpen h => some (h, [.service])
  | .planWrite h _ _ => some (h, [.service])
  | .planCommit h _ => some (h, [.service])
  | .planDiscard h => some (h, [.service])
  | .planRead h _ _ => some (h, [.service])
  | .probeRun h _ _ => some (h, [.service])
  | .probeStep h _ => some (h, [.service])
  | .probeMask h _ => some (h, [.service])
  | .probeUnmask h _ => some (h, [.service])
  | .probeStop h _ => some (h, [.service])
  | .probeStatus h _ => some (h, [.service])
  | _ => none

/-- A request is passed down the train although it is not a broadcast: PHASE (R181). -/
def alwaysForwarded : Instr → Bool
  | .phase _ => true
  | _ => false

/-- Requests that a broadcast does not move (R169, R189 and the requests' own rules). -/
def ignoresBroadcast : Instr → Bool
  | .ping _ | .unitStatus _ | .funcStatus _ _ | .noticeFetch _ | .noticeResync _ | .recRead _ _ | .recList _ _ _ => true
  | .actTake _ _ | .actMoveDirection _ _ _ | .actMoveTarget _ _ _ | .actMoveEnergise _ _ | .actGive _ _ => true
  | .unitAssign _ _ | .unitSet _ _ | .unitClear _ => true
  | .recRetire _ _ | .recEditOpenMask _ _ _ | .recEditCalibration _ _ _ => true
  | .planOpen _ | .planWrite _ _ _ | .planCommit _ _ | .planDiscard _ | .planRead _ _ _ => true
  | .probeRun _ _ _ | .probeMask _ _ | .probeUnmask _ _ | .probeStop _ _ | .probeStatus _ _ => true
  | _ => false

/-- Events that report a level outside the part, which is there whether or not the part is powered (log entry 5). -/
def isLevelEvent : Instr → Bool
  | .cplSupPresenceChange _ | .supplyLowChange _ | .thermalWarnChange _ | .driveSupplyChange _ => true
  | .cplSenseAsserted | .cplSenseNegated | .rearSenseAsserted | .rearSenseNegated => true
  | .stopForceAsserted | .stopForceNegated | .svcHoldAsserted | .svcHoldNegated => true
  | .switchPinChange _ _ | .encoderStep _ _ | .phaseError _ => true
  | _ => false

/-- The part when a well-formed frame of a master has arrived (R62, R185, R186). -/
def heard (m : Master) (s : State) : State :=
  match m with
  | .front => portHeard .front (frameJudged .front s)
  | m => portHeard m (wake (frameJudged (masterPort m) s))

/-- The part when a request stands before the judging of R188: its frame has arrived, and on FRONT a broadcast has
joined the downstream forward queue. -/
def arrived (h : ReqHdr) (c : Instr) (s : State) : State :=
  passDown h (.command c) (h.broadcast || alwaysForwarded c) (heard h.station s)

/-- The part as a request that is taken finds it (R188 step 5). -/
def met (h : ReqHdr) (c : Instr) (s : State) : State :=
  if h.broadcast then arrived h c s else setOutstanding h.station true (arrived h c s)

/-- A request's frame is taken in: the part is powered and the port is served (R185). -/
abbrev Reaches (h : ReqHdr) (s : State) : Prop := s.powered = true ∧ (h.station = .front → frontDeaf s = false)

/-- A request passes steps 1 and 3 of R188. -/
abbrev Taken (h : ReqHdr) (allowed : List Master) (s : State) : Prop :=
  Reaches h s ∧ h.station ∈ allowed ∧ (h.broadcast = false → (station s h.station).outstanding = false)

/-- The master lines of `u` are those of `w` with one reply added on the requester's, and none for a broadcast
(R188, R189). -/
def Answered (closes : Bool) (h : ReqHdr) (r : Result) (b : Body) (w u : State) : Prop :=
  ∀ m : Master,
    line u (masterPort m) =
      if m = h.station ∧ h.broadcast = false then
        { line w (masterPort m) with
          waiting := (line w (masterPort m)).waiting ++
            [{ kind := .reply, station := h.station, dest := h.src, src := u.chain.own, corr := h.corr,
               code := resultCode r, body := b, closes := closes }] }
      else line w (masterPort m)

/-- The reply to a request that was taken. -/
abbrev Replied := Answered true

/-! ## Runs judged, and the load of the active plan -/

/-- Every run still in progress meets its class, its function, for a TARGET run its reference, and its interlocks (R165,
R166). -/
def RunsJudged (u : State) : Prop :=
  ∀ o : Fin 6, running u o = true →
    let e := u.plan.active.acts[o]
    e.fn ≠ none ∧ e.cls = kindClass u.act.outs[o].kind ∧
      (u.act.outs[o].kind = .target → e.link ≠ none ∧ referenced u o = true) ∧
      ∀ i ∈ e.interlocks, (∀ f, i = .senseOpened f ∨ i = .senseClosed f → 22 ≤ f ∧ f ≤ 27) → interlockHolds u i = true

/-- Every output is as before, but for a released hold, or its run has ended with INTERLOCK, TARGET or LIMIT (R162, R166,
R167). -/
def RunsKeptOrEnded (w u : State) : Prop :=
  ∀ o : Fin 6, u.act.outs[o] = { w.act.outs[o] with holder := u.act.outs[o].holder } ∨
    (running w o = true ∧ ∃ r : EndReason, (r = .interlock ∨ r = .target ∨ r = .limit) ∧
      u.act.outs[o] = ⟨u.act.outs[o].holder, .idle, .none, none, .stopped, none, .stopped, some r⟩)

/-- The bound functions and the UNASSIGNED mark of a LAMP record as a plan gives them (R47 step 2). -/
def boundBy (p : Plan) (ch : Fin 24) (r : LampRec) : LampRec :=
  { r with bound := channelFns p ch, unassigned := !channelBound p ch }

/-- `u` comes from `w` by an entry to PROBING, which loads the active plan: the plan and PLAN_FALLBACK, the LAMP records in
line with the new bindings, the debouncers, and the runs (R46, R47, R147, R166). -/
def PlanTaken (w u : State) : Prop :=
  let p := u.plan.active
  (p = (if w.lines.planSel then (validPlan w).getD Config.builtInPlan else Config.builtInPlan) ∧
    u.cc.causes.planFallback = (w.lines.planSel && (validPlan w).isNone)) ∧
  (∀ (t : Fin 40) (g : Byte) (ch : Fin 24) (r : LampRec), u.store.records[t] = some ⟨g, .lamp ch r⟩ →
    r = boundBy p ch r ∧ (r.loadClass = .noLoad → channelBound p ch = true)) ∧
  (w.store.queue = [] → ∀ (t : Fin 40) (g : Byte) (ch : Fin 24) (r : LampRec),
    w.store.records[t] = some ⟨g, .lamp ch r⟩ → (r.loadClass = .noLoad → channelBound p ch = true) →
    u.store.records[t] = some ⟨if boundBy p ch r = r then g else g + 1, .lamp ch (boundBy p ch r)⟩) ∧
  (∀ i : Fin 10,
    let was := (w.plan.active.sensors[i]).cls
    let now := (p.sensors[i]).cls
    ((was = .switch ↔ now = .switch) → u.input.inputs[i] = w.input.inputs[i]) ∧
    (was ≠ .switch → now = .switch →
      u.input.inputs[i] = { w.input.inputs[i] with level := .unknown, settled := false, debounce := .running }) ∧
    (was = .switch → now ≠ .switch →
      u.input.inputs[i] = { w.input.inputs[i] with level := .unknown, settled := false, debounce := .stopped })) ∧
  RunsKeptOrEnded w u ∧ RunsJudged u ∧
  (w.store.queue = [] → ∀ o : Fin 6, u.act.outs[o].holder = w.act.outs[o].holder)

/-! ## Invariants -/

/-- The function status table, MISSING_FUNCTION and LAMP_FAULT are those of the records and the active plan
(R55 to R57, R140). -/
def Reconciled (s : State) : Prop :=
  s.plan.status = statusTable s ∧ s.cc.causes.missingFunction = requiredMissing s ∧
    s.cc.causes.lampFault = anyLampFault s

/-- FRONT and UNIT hold claims only in PROBING, SERVING and PARTING (R113, R122). -/
def ClaimsFollowCoupling (s : State) : Prop :=
  coupled s = false → ∀ f : Fin 16, claimAt s .front f = none ∧ claimAt s .unit f = none

/-- REAR_FEED is on only in SERVING, with an own number 1 to 3 (R175, R176, R178). -/
def FeedInServing (s : State) : Prop :=
  rearFeed s = true → s.cc.state = .serving ∧ 1 ≤ s.chain.own ∧ s.chain.own ≤ 3

/-- Bounds of the chain block: the own number and the two forward queues (R174). -/
def ChainBounded (s : State) : Prop :=
  s.chain.own ≤ 4 ∧ s.chain.down.length ≤ 4 ∧ s.chain.up.length ≤ 4

/-- The number last assigned and the downstream number of every UNIT record are at most 4 (R7). -/
def NumbersInRange (s : State) : Prop :=
  s.chain.assigned ≤ 4 ∧ ∀ (t : Fin 40) (g : Byte) (r : UnitRec), s.store.records[t] = some ⟨g, .unit r⟩ → r.number ≤ 4

/-- A sequencer holds the source only in STEPPING, its cycle timer runs only in WAIT_CYCLE, where it has no index, and
while its request is pending it stands in WAIT_STORE with its result (R12, R86, R88, R90). -/
def SequencersStand (s : State) : Prop :=
  (∀ n : Fin 4, s.probe.holder = some n → s.probe.seqs[n].status = .stepping) ∧
    (∀ n : Fin 4, s.probe.seqs[n].cycleTimer = .running →
      s.probe.seqs[n].status = .waitCycle ∧ s.probe.seqs[n].index = none) ∧
    ∀ n : Fin 4, isPending s (.sq n) = true →
      s.probe.seqs[n].status = .waitStore ∧ s.probe.seqs[n].held ≠ none

/-- The cell counts a request may name for its subject (1.2). -/
def CellsSuit (q : AllocReq) : Prop :=
  match q.subject with
  | .lamp _ => q.cells = 1
  | .sensor _ => q.cells = 1 ∨ q.cells = 2
  | .actuator _ => q.cells = 2 ∨ q.cells = 3
  | .unit => q.cells = 1

/-- The store's accounts: the free cells and the cells of the live records are 60, the free tags and the live records 40,
no two live records have one kind and subject, and the pending allocation queue holds at most 6 requests, one of each
requester, with their requesters held; no UNIT record is live while the chain block's request is pending (R1, R2, R12,
R177). -/
def StoreBounded (s : State) : Prop :=
  freeCells s + usedCells s.store = 60 ∧ freeTags s + liveCount s.store = 40 ∧
    (∀ (t k : Fin 40) (a b : Record), s.store.records[t] = some a → s.store.records[k] = some b →
      a.content.subject = b.content.subject → t = k) ∧
    s.store.queue.length ≤ 6 ∧ (s.store.queue.map (·.requester)).Nodup ∧ (∀ q ∈ s.store.queue, CellsSuit q) ∧
    SequencersStand s ∧ (liveTag s .unit = none ∨ ∀ q ∈ s.store.queue, q.requester ≠ .chain)

/-- Every notice queue holds at most 12 entries (R24). -/
def NoticeBounded (s : State) : Prop := ∀ m : Master, (queueOf s m).entries.length ≤ 12

/-- A due queue of an attached port has PENDING_SENT set (R29). -/
def NoticeSent (s : State) : Prop :=
  ∀ m : Master, due s m = true → (station s m).attached = true → (queueOf s m).pendingSent = true

/-- The counts of the counters and the low and normal counts of the channels are in their ranges (R146, R129). -/
def CountsBounded (s : State) : Prop :=
  (∀ c : Fin 2, s.input.counters[c].count ≤ 4095) ∧
    ∀ ch : Fin 24, s.lamp.channels[ch].lowCount ≤ 3 ∧ s.lamp.channels[ch].normalCount ≤ 3

/-- Resolution, shedding and drive are those of the claims, the plan, the records and the conditions of this moment
(R114 to R119, R130, R132). -/
def Arbitrated (s : State) : Prop :=
  (∀ ch : Fin 24, s.arb.resolved[ch] = resolve s ch) ∧
    (∀ ch : Fin 24, s.arb.shed[ch] = (admission s).2.contains ch) ∧
    (∀ ch : Fin 24, s.lamp.channels[ch].command = filteredCmd s ch) ∧
    (∀ ch : Fin 24, s.lamp.channels[ch].driven = driveCondition s.lamp.timebase s.lamp.channels[ch]) ∧
    (s.lamp.timebase = .stopped ↔ anyFlash s = false)

end Sys2Proof.Machine
end

