-- ==== Sys2Proof/Certificates/Slice0/Obligations.lean ====
section
/-! DEFINITION. The statements for the provers. In the statements about one command, `u` is the part after the
command's own effect, before the reactions of the other blocks (log entry 14) and the end of the event (log entry 11);
`w` is the part as a request meets it (`met`): its frame heard and its mark set. -/

open Sys2Proof Sys2Proof.Machine

/-! ## The machine -/

/-- A step takes the command at the front of the queue on the queue's rest, and an empty queue idles (log entry 3). -/
def Obligations.StepRunsTheFrontCommand : Prop :=
  (∀ (c : Instr) (cs : List Instr) (s : State), s.pending = c :: cs → step s = exec c { s with pending := cs }) ∧
    ∀ s : State, s.pending = [] → step s = .next s

/-- Every command answers a next state and leaves the queue of commands alone. -/
def Obligations.EveryCommandCompletesAndKeepsTheQueue : Prop :=
  ∀ (c : Instr) (s : State), ∃ t, exec c s = .next t ∧ t.pending = s.pending

/-- What the reset state holds by the reset rules of the chapters; a supply reset of it, with the lines and supplies of log
entry 4, gives it again. -/
def Obligations.ResetHoldsTheStatedValues : Prop :=
  exec (.supplyReset ⟨false, false, false, true⟩) State.reset = .next State.reset ∧
  let s := State.reset
  (s.cc.state = .quiet ∧ s.cc.motion = .parked ∧ s.cc.inventoryIdent = 0 ∧ s.cc.supplyEvent = true ∧
      s.cc.bringUp = false ∧ s.cc.idleExpired = true) ∧
    (s.plan.active = Config.builtInPlan ∧ s.plan.staging = none ∧ s.plan.commit = none) ∧
    (freeCells s = 60 ∧ freeTags s = 40 ∧ s.store.queue = []) ∧
    (∀ m : Master, queueOf s m = ⟨[.unitStatus], ⟨true, true, true, true, true⟩, false, false⟩) ∧
    (noClaims s = true ∧ s.arb.frontSilent = false ∧ shedCount s = 0 ∧ budget s = 160) ∧
    (∀ ch : Fin 24, s.lamp.channels[ch].fault = .normal ∧ s.lamp.channels[ch].driven = false) ∧
    s.lamp.timebase = .stopped ∧
    (∀ n : Fin 4, s.probe.seqs[n].status = .idle ∧ s.probe.seqs[n].program = none) ∧
    (s.probe.holder = none ∧ s.probe.mode = .fixed ∧ s.probe.last = 3) ∧
    (∀ i : Fin 10, s.input.inputs[i].level = .unknown ∧ s.input.inputs[i].settled = false) ∧
    (∀ c : Fin 2, s.input.counters[c].count = 0 ∧ s.input.counters[c].referenced = false) ∧
    (∀ o : Fin 6, s.act.outs[o].holder = none ∧ s.act.outs[o].run = .idle ∧ s.act.outs[o].lastEnd = none) ∧
    (s.chain.own = 0 ∧ s.chain.feedTry = true ∧ s.chain.down = [] ∧ s.chain.up = [] ∧ rearFeed s = false) ∧
    ∀ m : Master, (station s m).attached = false ∧ (station s m).outstanding = false

/-! ## Invariants -/

/-- The function status table, MISSING_FUNCTION and LAMP_FAULT stay those of the records and the plan. -/
def Obligations.StepKeepsReconciled : Prop :=
  ∀ s t : State, Reconciled s → step s = .next t → Reconciled t

/-- FRONT and UNIT claims exist only in PROBING, SERVING and PARTING. -/
def Obligations.StepKeepsClaimsFollowCoupling : Prop :=
  ∀ s t : State, ClaimsFollowCoupling s → step s = .next t → ClaimsFollowCoupling t

/-- REAR_FEED is on only in SERVING with an own number 1 to 3; with it, the downstream number of the UNIT record and the
number last assigned stay at most 4 (log entry 48). -/
def Obligations.StepKeepsFeedInServing : Prop :=
  (∀ s t : State, FeedInServing s → step s = .next t → FeedInServing t) ∧
    ∀ s t : State, FeedInServing s → NumbersInRange s → step s = .next t → NumbersInRange t

/-- Counts, numbers and queues stay in their ranges. The record store stays in its bounds: free and used cells are 60, free
tags and live records 40, no two live records have one kind and subject, and the pending allocation queue holds at most 6
requests with at most one of each requester, whose sequencers stand in WAIT_STORE with their results. -/
def Obligations.StepKeepsTheRanges : Prop :=
  (∀ s t : State, ChainBounded s ∧ NoticeBounded s ∧ CountsBounded s → step s = .next t →
    ChainBounded t ∧ NoticeBounded t ∧ CountsBounded t) ∧
    ∀ s t : State, StoreBounded s → step s = .next t → StoreBounded t

/-- Resolution, shedding and drive stay those of the claims, the plan, the records and the conditions. -/
def Obligations.StepKeepsArbitrated : Prop :=
  ∀ s t : State, (s.powered = true → Arbitrated s) → step s = .next t → t.powered = true → Arbitrated t

/-- A due queue of an attached port has its NOTICE_PENDING sent. -/
def Obligations.StepKeepsNoticeSent : Prop :=
  ∀ s t : State, NoticeSent s → step s = .next t → NoticeSent t

/-- The invariants hold at the reset state. -/
def Obligations.ResetMeetsTheInvariants : Prop :=
  Reconciled State.reset ∧ ClaimsFollowCoupling State.reset ∧ FeedInServing State.reset ∧
    ChainBounded State.reset ∧ NoticeBounded State.reset ∧ CountsBounded State.reset ∧ Arbitrated State.reset ∧
    NoticeSent State.reset ∧ NumbersInRange State.reset ∧ StoreBounded State.reset

/-! ## Power -/

/-- The loss of power changes the power alone; an unpowered part takes no event but a supply reset. Of an event that reports
a level outside it, it takes the level alone: the lines, the battery at the drive threshold, a switch pin and the phases of
a counter; debounced levels, settled marks, debounce timers and snapshots, counts and referenced marks stay (R60, R147, R156).
That the levels are seen without power is the model's choice (log entry 5). -/
def Obligations.UnpoweredPartStandsStill : Prop :=
  (∀ s : State, exec .powerLoss s = .next { s with powered := false }) ∧
    ∀ (c : Instr) (s : State), s.powered = false → (∀ v, c ≠ .supplyReset v) →
      ∃ t, exec c s = .next t ∧ Frame [.lines, .driveSupply, .inputs, .counters] s t ∧
        (∀ i : Fin 10, t.input.inputs[i] = { s.input.inputs[i] with pinClosed := t.input.inputs[i].pinClosed }) ∧
        (∀ k : Fin 2, t.input.counters[k] =
          { s.input.counters[k] with
            phaseA := t.input.counters[k].phaseA, phaseB := t.input.counters[k].phaseB }) ∧
        (isLevelEvent c = false → t = s)

/-- What a supply reset leaves in every block. That it clears CLEAR_EVENT is the model's choice (log entry 20), and so is
what the command tells of the supplies (log entry 6). -/
def Obligations.SupplyResetPutsEveryBlockToReset : Prop :=
  ∀ (v : SupplyView) (s : State), ∃ t, exec (.supplyReset v) s = .next t ∧
    (t.powered = true ∧ t.lines.cplPresent = v.cplPresent ∧
      driveSupply t = (v.cplPresent || v.batteryDrive)) ∧
    (t.cc.state = (if s.lines.cplSense then .mating else .quiet) ∧
      t.cc.motion = (if s.lines.cplSense then .unknown else .parked) ∧
      t.cc.supplyEvent = true ∧ t.cc.clearEvent = false ∧ t.cc.inventoryIdent = 0 ∧ t.cc.idleExpired = true ∧
      t.cc.debounce = (if s.lines.cplSense ∧ v.cplPresent then .running else .stopped) ∧
      t.cc.causes.timeout = false ∧ t.cc.causes.store = false ∧ t.cc.causes.chainLost = false ∧
      t.cc.causes.planFallback = (s.lines.planSel && (validPlan s).isNone)) ∧
    (t.cc.origin = .none ∧ t.cc.debounceDone = false ∧ t.cc.deadline = .stopped ∧ t.cc.partingHold = .stopped ∧
      t.cc.bringUp = false ∧ t.cc.storeTrouble = false ∧ t.cc.reprobe = false ∧ t.cc.cycleRestore = false) ∧
    Reconciled t ∧
    (t.plan.active = (if s.lines.planSel then (validPlan s).getD Config.builtInPlan else Config.builtInPlan) ∧
      t.plan.staging = none ∧ t.plan.stored = s.plan.stored ∧ t.plan.commit = none) ∧
    ((∀ k : Fin 40, t.store.records[k] = none) ∧ t.store.queue = []) ∧
    (∀ m : Master, queueOf t m = NoticeQueue.reset ∧ station t m = ⟨false, .stopped, false⟩) ∧
    (noClaims t = true ∧ t.arb.frontSilent = false ∧ Arbitrated t) ∧
    (∀ ch : Fin 24, t.lamp.channels[ch].fault = .normal ∧ t.lamp.channels[ch].clearWindow = .stopped) ∧
    (t.lamp.supplyLow = !v.cplAbove22 ∧ t.lamp.thermalWarn = v.hot) ∧
    ((∀ n : Fin 4, t.probe.seqs[n] = Sequencer.idle) ∧ t.probe.holder = none ∧ t.probe.mode = .fixed ∧
      t.probe.last = 3) ∧
    (∀ i : Fin 10, t.input.inputs[i].level = .unknown ∧ t.input.inputs[i].settled = false ∧
      t.input.inputs[i].debounce = (if (t.plan.active.sensors[i]).cls = .switch then .running else .stopped) ∧
      t.input.inputs[i].snapshot =
        (if s.lines.cplSense = false ∧ (t.plan.active.sensors[i]).cls = .switch ∧
            (t.plan.active.sensors[i]).wake = true then some .unknown
        else none) ∧
      t.input.inputs[i].pinClosed = s.input.inputs[i].pinClosed) ∧
    (∀ k : Fin 6, t.input.sense[k] = .unknown) ∧
    (∀ c : Fin 2, t.input.counters[c].count = 0 ∧ t.input.counters[c].referenced = false) ∧
    (∀ o : Fin 6, t.act.outs[o] = Actuator.reset) ∧
    (t.chain = Chain.reset s.lines.rearSense ∧ t.pending = s.pending)

/-! ## How requests are met -/

/-- FRONT is not served in QUIET and LOCAL: a request from FRONT has no effect of its own there. An addressed request to a
master whose last one is outstanding is refused BUSY, and one from a port it is not permitted on FORBIDDEN; neither does
anything else (R113, R185, R188 steps 1 and 3). -/
def Obligations.RequestsAreDiscardedOrRefused : Prop :=
  (∀ (c : Instr) (h : ReqHdr) (allowed : List Master) (s : State), requestParts c = some (h, allowed) →
    h.station = .front → s.powered = true → (s.cc.state = .quiet ∨ s.cc.state = .localAwake) →
    exec c s = .next (settle s (react Config.reactFuel (frameJudged .front s)))) ∧
    ∀ (c : Instr) (h : ReqHdr) (allowed : List Master) (s : State), requestParts c = some (h, allowed) → Reaches h s →
      let w := arrived h c s
      (h.broadcast = false → (station s h.station).outstanding = true →
        ∃ u, exec c s = .next (settle s (react Config.reactFuel u)) ∧
          Answered false h .busy .empty w u ∧ Frame [.masterFrames] w u) ∧
      ((h.broadcast = false → (station s h.station).outstanding = false) → h.station ∉ allowed →
        ∃ u, exec c s = .next (settle s (react Config.reactFuel u)) ∧
          Answered false h .forbidden .empty w u ∧ Frame [.masterFrames] w u)

/-- What the arrival of a request changes before its own rule: the receive buffer, the station, the idle timer, FRONT_SILENT,
the downstream queue, and QUIET, which it wakes to LOCAL (R62, R63, R121, R181, R185, R186, R188). That a request row finding
QUIET wakes it is the model's choice (log entry 33), and so is the command that stands for the forwarded frame (log
entry 7). -/
def Obligations.ArrivalOfARequest : Prop :=
  ∀ (c : Instr) (h : ReqHdr) (allowed : List Master) (s : State), requestParts c = some (h, allowed) → Reaches h s →
    let w := met h c s
    (station w h.station =
        ⟨true, .running, if h.broadcast then (station s h.station).outstanding else true⟩ ∧
      ∀ m, m ≠ h.station → station w m = station s m) ∧
    (∀ m : Master, line w (masterPort m) =
      if m = h.station then { line s (masterPort m) with rx := [], collided := false } else line s (masterPort m)) ∧
    (h.station = .front →
      w.arb.frontSilent = false ∧ Frame [.frontSilent, .stations, .forward, .masterFrames] s w ∧
        w.chain.down =
          if (h.broadcast ∨ alwaysForwarded c = true) ∧ s.chain.rear = .linked ∧ s.chain.down.length < 4 then
            s.chain.down ++ [.command c]
          else s.chain.down) ∧
    (h.station ≠ .front → s.cc.state ≠ .quiet →
      w.cc.idleExpired = false ∧ Frame [.idle, .stations, .masterFrames] s w) ∧
    (h.station ≠ .front → s.cc.state = .quiet →
      w.cc.state = .localAwake ∧ w.cc.motion = .parked ∧ w.cc.idleExpired = false ∧
        Frame ([.idle, .stations, .masterFrames] ++
          [.state, .motion, .claims, .resolution, .drive, .rearFrames, .outs, .store, .handed]) s w)

/-- A broadcast of these requests changes nothing and gets no reply (R189). -/
def Obligations.OtherBroadcastsChangeNothing : Prop :=
  ∀ (c : Instr) (h : ReqHdr) (allowed : List Master) (s : State), requestParts c = some (h, allowed) →
    ignoresBroadcast c = true → Taken h allowed s → h.broadcast = true →
    exec c s = .next (settle s (react Config.reactFuel (met h c s)))

/-! ## Requests that read -/

/-- PING, UNIT_STATUS, FUNC_STATUS, REC_LIST and PROBE_STATUS answer and change nothing (R191, R33, R35, R21, R103). -/
def Obligations.ReadingRequestsAnswer : Prop :=
  ∀ (h : ReqHdr) (s : State), Taken h allMasters s →
    (∃ u, exec (.ping h) s = .next (settle s (react Config.reactFuel u)) ∧
      let w := met h (.ping h) s
      Replied h .done (.ping w.chain.own w.cc.state (quality w) w.chain.rear) w u ∧ Frame [.masterFrames] w u) ∧
    (∃ u, exec (.unitStatus h) s = .next (settle s (react Config.reactFuel u)) ∧
      let w := met h (.unitStatus h) s
      Replied h .done (.unitStatus (statusImage w)) w u ∧ Frame [.masterFrames] w u) ∧
    (∀ fn : Nat, ∃ u, exec (.funcStatus h fn) s = .next (settle s (react Config.reactFuel u)) ∧
      let w := met h (.funcStatus h fn) s
      Frame [.masterFrames] w u ∧
        (27 < fn → Replied h .badArg .empty w u) ∧
        ∀ hf : fn < 28, Replied h .done (.funcStatus w.plan.status[fn] (functionSubjects w fn)) w u) ∧
    (∀ (kind : Option RecKind) (start : Nat), ∃ u,
      exec (.recList h kind start) s = .next (settle s (react Config.reactFuel u)) ∧
      let w := met h (.recList h kind start) s
      Frame [.masterFrames] w u ∧
        (kind = none ∨ 39 < start → Replied h .badArg .empty w u) ∧
        ∀ k, kind = some k → start ≤ 39 →
          let ts := (List.finRange 40).filter fun t =>
            decide (start ≤ t.val) && (w.store.records[t]).any fun r => decide (r.content.kind = k)
          Replied h .done (.recList (ts.take 20) (ts[20]?)) w u) ∧
    (h.station = .service → ∀ sq : Nat, ∃ u,
      exec (.probeStatus h sq) s = .next (settle s (react Config.reactFuel u)) ∧
      let w := met h (.probeStatus h sq) s
      Frame [.masterFrames] w u ∧
        (3 < sq → Replied h .badArg .empty w u) ∧
        ∀ hn : sq < 4, Replied h .done (.probeStatus (probeImage w ⟨sq, hn⟩)) w u)

/-- REC_READ answers the whole record of a live tag and changes nothing (R20). -/
def Obligations.RecReadAnswersTheRecord : Prop :=
  ∀ (h : ReqHdr) (tag : Nat) (s : State), Taken h allMasters s →
    let w := met h (.recRead h tag) s
    ∃ u, exec (.recRead h tag) s = .next (settle s (react Config.reactFuel u)) ∧
      Frame [.masterFrames] w u ∧
      (39 < tag → Replied h .badArg .empty w u) ∧
      ∀ ht : tag < 40,
        (w.store.records[tag] = none → Replied h .notFound .empty w u) ∧
        ∀ r, w.store.records[tag] = some r →
          Replied h .done (.record ⟨⟨tag, ht⟩, r, positionOf w r.content⟩) w u

/-- PLAN_READ answers the named entry of the named copy and changes nothing (R51). That an index above 39 is refused before
the copy is looked for is the model's choice (log entry 43). -/
def Obligations.PlanReadAnswersTheEntry : Prop :=
  ∀ (h : ReqHdr) (copy : Option PlanCopy) (index : Nat) (s : State), Taken h [.service] s → h.broadcast = false →
    let w := met h (.planRead h copy index) s
    ∃ u, exec (.planRead h copy index) s = .next (settle s (react Config.reactFuel u)) ∧
      Frame [.masterFrames] w u ∧
      (copy = none ∨ 39 < index → Replied h .badArg .empty w u) ∧
      ∀ c, copy = some c → index ≤ 39 →
        let held : Option Plan :=
          match c with
          | .active => some w.plan.active
          | .staging => w.plan.staging
          | .stored => validPlan w
        (held = none → Replied h .notFound .empty w u) ∧
        ∀ p, held = some p →
          (∀ hl : index < 24, Replied h .done (.planEntry p.ident (.lamp p.lamps[index])) w u) ∧
          (∀ hs : 24 ≤ index ∧ index - 24 < 10,
            Replied h .done (.planEntry p.ident (.sensor (p.sensors[index - 24]'hs.2))) w u) ∧
          (∀ ha : 34 ≤ index ∧ index - 34 < 6,
            Replied h .done (.planEntry p.ident (.actuator (p.acts[index - 34]'ha.2))) w u)

/-! ## Notice requests -/

/-- NOTICE_FETCH takes passing entries from the head of the sender's queue, at most 3 and as many as fit (R30). -/
def Obligations.NoticeFetchTakesPassingEntries : Prop :=
  ∀ (h : ReqHdr) (s : State), Taken h allMasters s → h.broadcast = false →
    let w := met h (.noticeFetch h) s
    let q := queueOf w h.station
    let passing := q.entries.filter (passes w q.filter)
    ∃ (u : State) (ps : List (NoticeEntry × Image)),
      exec (.noticeFetch h) s = .next (settle s (react Config.reactFuel u)) ∧
      ps.map (·.1) = passing.take ps.length ∧ (∀ p ∈ ps, entryImage w p.1 = some p.2) ∧
      ps.length ≤ 3 ∧ (ps.map fun p => imageSize p.2).sum ≤ 38 ∧
      (ps.length = 3 ∨ ps.length = passing.length ∨
        ∃ e im, passing[ps.length]? = some e ∧ entryImage w e = some im ∧
          38 < (ps.map fun p => imageSize p.2).sum + imageSize im) ∧
      (queueOf u h.station).entries = q.entries.filter (fun e => !(ps.map (·.1)).contains e) ∧
      (queueOf u h.station).filter = q.filter ∧ (queueOf u h.station).overflowed = q.overflowed ∧
      (queueOf u h.station).pendingSent = (q.pendingSent && due u h.station) ∧
      (∀ m, m ≠ h.station → queueOf u m = queueOf w m) ∧
      Replied h .done (.fetch q.overflowed (passingCount u h.station) (ps.map (·.2))) w u ∧
      Frame [.masterFrames, .notice] w u

/-- NOTICE_FILTER replaces the sender's filter, NOTICE_RESYNC empties the sender's queue and lists the live tags, and
UNIT_ACK clears the three event flags (R28, R31, R34). -/
def Obligations.NoticeFilterResyncAndUnitAck : Prop :=
  (∀ (h : ReqHdr) (s : State), Taken h allMasters s →
    let w := met h (.unitAck h) s
    ∃ u, exec (.unitAck h) s = .next (settle s (react Config.reactFuel u)) ∧
      (u.cc.supplyEvent = false ∧ u.cc.clearEvent = false ∧ u.chain.upOverrun = false) ∧
      (u.chain.down = w.chain.down ∧ u.chain.up = w.chain.up) ∧
      Replied h .done .empty w u ∧ Frame [.masterFrames, .events, .forward] w u) ∧
    ∀ (h : ReqHdr) (s : State), Taken h allMasters s →
      (∀ set : Option Filter,
        let w := met h (.noticeFilter h set) s
        let q := queueOf w h.station
        ∃ u, exec (.noticeFilter h set) s = .next (settle s (react Config.reactFuel u)) ∧
          (set = none → Replied h .badArg .empty w u ∧ Frame [.masterFrames] w u) ∧
          ∀ f, set = some f →
            queueOf u h.station = { q with filter := f, pendingSent := q.pendingSent && due u h.station } ∧
            (∀ m, m ≠ h.station → queueOf u m = queueOf w m) ∧
            Replied h .done .empty w u ∧ Frame [.masterFrames, .notice] w u) ∧
      (h.broadcast = false →
        let w := met h (.noticeResync h) s
        let q := queueOf w h.station
        ∃ u, exec (.noticeResync h) s = .next (settle s (react Config.reactFuel u)) ∧
          queueOf u h.station = ⟨[], q.filter, false, false⟩ ∧ (∀ m, m ≠ h.station → queueOf u m = queueOf w m) ∧
          Replied h .done (.tags ((List.finRange 40).filter fun t => (w.store.records[t]).isSome)) w u ∧
          Frame [.masterFrames, .notice] w u)

/-- At the end of an event, a unit status that changed and every tag handed stand in each queue that is not overflowed. A
pending count that went to 0 or from 0 inside the event is such a change, although it went back, and so is a unit status that
a step of the store or a reaction changed, reconciled before and after it (R1, R14, R25, R26, R55). That steps are watched
so is how the model reads a change inside an event (log entry 11). -/
def Obligations.ChangesAreHandedToTheQueues : Prop :=
  (∀ (old u : State) (m : Master),
    (statusView (settle old u) ≠ statusView old ∨ u.work.turned = true ∨ u.work.statusTurned = true →
      .unitStatus ∈ (queueOf (settle old u) m).entries ∨ (queueOf (settle old u) m).overflowed = true) ∧
    (∀ t ∈ u.work.handed,
      .tag t ∈ (queueOf (settle old u) m).entries ∨ (queueOf (settle old u) m).overflowed = true) ∧
    ((queueOf u m).overflowed = true → (queueOf (settle old u) m).entries = (queueOf u m).entries)) ∧
    ∀ s : State,
      let changed (t : State) : Prop := statusView (reconcile t) ≠ statusView (reconcile s)
      (∀ c : Content, changed (createRec c s) → (createRec c s).work.statusTurned = true) ∧
      (∀ k : Fin 40, changed (removeRec k s) → (removeRec k s).work.statusTurned = true) ∧
      (∀ (k : Fin 40) (c : Content) (silent : Bool), changed (updateRec k c silent s) →
        (updateRec k c silent s).work.statusTurned = true) ∧
      (∀ (k : Fin 40) (c : Content), changed (supersedeRaw k c s) →
        (supersedeRaw k c s).work.statusTurned = true) ∧
      ∀ r : Reaction, changed (runReaction r s) → (watched s (runReaction r s)).work.statusTurned = true

/-! ## The record store -/

/-- Each store operation takes and returns exactly the cells of its records. A request completes at once only where no
request waits and there is room, and else joins the queue's tail; a re-try completes the head, and each new head, for as long
as each fits; a withdrawal takes its requests out and re-tries only where the head went; every turn of the queue between
empty and not is marked for the unit status (R1, R11, R12, R14, R15, R17, R18). What a head that names a live record's shape
needs, and that a held result is judged again when its request completes, is the model's choice (log entry 17). -/
def Obligations.StoreStepsBalanceTheCells : Prop :=
  (∀ (c : Content) (s : State), lowestFree s.store ≠ none →
      usedCells (createRec c s).store = usedCells s.store + c.cells ∧
        liveCount (createRec c s).store = liveCount s.store + 1) ∧
    (∀ (t : Fin 40) (s : State) (r : Record), s.store.records[t] = some r →
      usedCells (removeRec t s).store + r.content.cells = usedCells s.store ∧
        liveCount (removeRec t s).store + 1 = liveCount s.store) ∧
    (∀ (t : Fin 40) (c : Content) (s : State) (r : Record), s.store.records[t] = some r → lowestFree s.store ≠ none →
      usedCells (supersedeRaw t c s).store + r.content.cells = usedCells s.store + c.cells ∧
        liveCount (supersedeRaw t c s).store = liveCount s.store) ∧
    (∀ (q : AllocReq) (mk : Option Content → Option Content) (s : State),
      (s.store.queue = [] → 0 < freeTags s → q.cells ≤ freeCells s →
        requestAlloc q mk s = (writeContent q.subject mk s, false)) ∧
      (s.store.queue ≠ [] ∨ freeTags s = 0 ∨ freeCells s < q.cells →
        let u := (requestAlloc q mk s).1
        (requestAlloc q mk s).2 = true ∧ u.store.queue = s.store.queue ++ [q] ∧ u.store.records = s.store.records ∧
          u.work.turned = (s.work.turned || s.store.queue.isEmpty) ∧ Frame [.store, .handed] s u)) ∧
    (∀ s : State,
      (s.store.queue = [] → retry s = s) ∧
      ∀ (q : AllocReq) (qs : List AllocReq), s.store.queue = q :: qs →
        (fits s q = false → retry s = s) ∧
        (fits s q = true →
          let t := completeReq q (setAllocQueue qs s)
          retry s = retry t ∧ t.store.queue = qs ∧ (qs = [] → t.work.turned = true) ∧
          (∀ n, q.requester = .sq n → t.probe.seqs[n].held = none) ∧
          (q.requester = .coupling → t.cc.heldSwitch = none) ∧
          ∀ (c : Content) (k : Fin 40), liveTag s q.subject = none → heldReleases s q = false →
            heldContent s q none = some c → c.subject = q.subject → lowestFree s.store = some k →
            t.store.records[k] = some ⟨0, c⟩)) ∧
    ∀ (who : Requester → Bool) (s : State),
      let left := s.store.queue.filter fun q => !who q.requester
      (∀ q ∈ (withdraw who s).store.queue, who q.requester = false) ∧
      (left.head? = s.store.queue.head? →
        (withdraw who s).store.queue = left ∧ (withdraw who s).store.records = s.store.records ∧
          Frame [.store, .handed] s (withdraw who s)) ∧
      (left.head? ≠ s.store.queue.head? → withdraw who s = retry (setAllocQueue left s))

/-- REC_RETIRE releases the record it names, and its tag leaves every notice queue (R22, R18). -/
def Obligations.RecRetireReleasesTheRecord : Prop :=
  ∀ (h : ReqHdr) (tag : Nat) (s : State), Taken h [.service] s → h.broadcast = false →
    let w := met h (.recRetire h tag) s
    ∃ u, exec (.recRetire h tag) s = .next (settle s (react Config.reactFuel u)) ∧
      (39 < tag → Replied h .badArg .empty w u ∧ Frame [.masterFrames] w u) ∧
      ∀ ht : tag < 40,
        (w.store.records[tag] = none → Replied h .notFound .empty w u ∧ Frame [.masterFrames] w u) ∧
        ∀ r, w.store.records[tag] = some r →
          (heldRecord r.content = true → Replied h .refusedState .empty w u ∧ Frame [.masterFrames] w u) ∧
          (heldRecord r.content = false →
            Replied h .done .empty w u ∧
            Frame ([.masterFrames, .store, .notice, .handed, .seqs, .coupling, .sense, .counters, .outs] ++ arbitrated)
              w u ∧
            (let v := removeRec ⟨tag, ht⟩ w;
              v.store.records[tag] = none ∧ v.store.queue = w.store.queue ∧ u.store = (retry v).store) ∧
            (w.store.queue = [] →
              u.store.records[tag] = none ∧
              (∀ m, NoticeEntry.tag ⟨tag, ht⟩ ∉ (queueOf u m).entries) ∧
              ∀ k : Fin 40, k.val ≠ tag → (u.store.records[k]).isSome = (w.store.records[k]).isSome))

/-- REC_EDIT of the open mask writes the mask of the LAMP record it names, and setting it takes an OPEN channel to
NORMAL (R141). -/
def Obligations.RecEditWritesTheOpenMask : Prop :=
  ∀ (h : ReqHdr) (tag : Nat) (set : Bool) (s : State), Taken h [.service] s → h.broadcast = false →
    let w := met h (.recEditOpenMask h tag set) s
    ∃ u, exec (.recEditOpenMask h tag set) s = .next (settle s (react Config.reactFuel u)) ∧
      (39 < tag → Replied h .badArg .empty w u ∧ Frame [.masterFrames] w u) ∧
      ∀ ht : tag < 40,
        (w.store.records[tag] = none → Replied h .notFound .empty w u ∧ Frame [.masterFrames] w u) ∧
        (∀ r, w.store.records[tag] = some r → r.content.kind ≠ .lamp →
          Replied h .badArg .empty w u ∧ Frame [.masterFrames] w u) ∧
        ∀ g ch r, w.store.records[tag] = some ⟨g, .lamp ch r⟩ →
          (r.openMask = set → Replied h .done .empty w u ∧ Frame [.masterFrames] w u) ∧
          (r.openMask ≠ set → liveTag w (.lamp ch) = some ⟨tag, ht⟩ →
            let f := if set = true ∧ w.lamp.channels[ch].fault = .opened then .normal else w.lamp.channels[ch].fault
            u.lamp.channels[ch].fault = f ∧
            u.store.records[tag] = some ⟨g + 1, .lamp ch { r with openMask := set, state := lampStateOf f r.loadClass }⟩ ∧
            (u.lamp.channels[ch].lowCount = 0 ∧ u.lamp.channels[ch].normalCount = 0) ∧
            (∀ k : Fin 24, k ≠ ch → u.lamp.channels[k].fault = w.lamp.channels[k].fault) ∧
            (∀ k : Fin 40, k.val ≠ tag → u.store.records[k] = w.store.records[k]) ∧
            Arbitrated u ∧ Replied h .done .empty w u ∧
            Frame ([.masterFrames, .store, .handed, .faults] ++ arbitrated) w u)

/-- REC_EDIT of a calibration part: the refusals in their order, the update in place, and the supersede with its new tag,
which takes the old one's place in every notice queue and is handed (R154, R13, R17, R27). -/
def Obligations.RecEditWritesTheCalibration : Prop :=
  ∀ (h : ReqHdr) (tag : Nat) (edit : Option Calib) (s : State), Taken h [.service] s → h.broadcast = false →
    let w := met h (.recEditCalibration h tag edit) s
    let good : Prop := tag < 40 ∧ ∀ k, edit = some k →
      k.offset ≤ 3000 ∧ 1 ≤ k.span ∧ k.span ≤ 9999 ∧ k.low ≤ 9999 ∧ k.high ≤ 9999 ∧ k.low ≤ k.high
    ∃ u, exec (.recEditCalibration h tag edit) s = .next (settle s (react Config.reactFuel u)) ∧
      (¬ good → Replied h .badArg .empty w u ∧ Frame [.masterFrames] w u) ∧
      (good → recordAt w tag = none → Replied h .notFound .empty w u ∧ Frame [.masterFrames] w u) ∧
      (good → ∀ r, recordAt w tag = some r → (∀ i x, r.content = .sensor i x → x.resistive = false) →
        Replied h .badArg .empty w u ∧ Frame [.masterFrames] w u) ∧
      (good → ∀ g i r, recordAt w tag = some ⟨g, .sensor i r⟩ → r.resistive = true →
        let c := Content.sensor i (recalibrated edit r)
        (r.calib = none → edit = none → Replied h .done .empty w u ∧ Frame [.masterFrames] w u) ∧
        (r.calib.isSome = true → edit.isSome = true →
          recordAt u tag = some (if c = .sensor i r then ⟨g, .sensor i r⟩ else ⟨g + 1, c⟩) ∧
          Replied h .done .empty w u ∧
          Frame [.masterFrames, .store, .handed, .sense, .counters, .outs] w u) ∧
        (r.calib.isSome ≠ edit.isSome →
          ((w.store.queue ≠ [] ∨ freeTags w = 0 ∨ freeCells w < c.cells) →
            Replied h .noRoom .empty w u ∧
            (u.cc.causes.store = true ↔ w.cc.causes.store = true ∨ w.cc.state = .probing) ∧
            Frame [.masterFrames, .coupling, .causes] w u) ∧
          (w.store.queue = [] → 0 < freeTags w → c.cells ≤ freeCells w →
            ∃ new, lowestFree w.store = some new ∧ recordAt u new = some ⟨g + 1, c⟩ ∧ recordAt u tag = none ∧
              (∀ old : Fin 40, old.val = tag → ∀ m : Master, queueOf u m =
                { queueOf w m with
                  entries := (queueOf w m).entries.map fun e => if e = .tag old then .tag new else e }) ∧
              new ∈ u.work.handed ∧ Replied h .done (.newTag new) w u ∧
              Frame [.masterFrames, .store, .notice, .handed, .sense, .counters, .outs] w u)))

/-! ## Claims -/

/-- CLAIM is judged in the order of R109, and one that passes is entered in the table; FRONT's removes every UNIT claim
(R108, R109, R122). -/
def Obligations.ClaimIsJudgedAndEntered : Prop :=
  ∀ (h : ReqHdr) (fn : Nat) (mode : Option ClaimMode) (level : LevelArg) (s : State), Taken h allMasters s →
    let w := met h (.claim h fn mode level) s
    let good : Prop := fn ≤ 27 ∧ mode ≠ none ∧ ∀ n, level = .num n → 1 ≤ n ∧ n ≤ 31
    let own : Prop :=
      match h.station with
      | .front => True
      | .chassis => fn = 0 ∨ fn = 1 ∨ fn = 2
      | .service => holdEffective w = true ∨ 11 ≤ fn
    ∃ u, exec (.claim h fn mode level) s = .next (settle s (react Config.reactFuel u)) ∧
      (¬ good ∨ 15 < fn → Replied h .badArg .empty w u ∧ Frame [.masterFrames] w u) ∧
      (good → fn ≤ 15 → ¬ own → Replied h .forbidden .empty w u ∧ Frame [.masterFrames] w u) ∧
      (good → fn ≤ 15 → own → w.cc.state = .mating →
        Replied h .refusedState .empty w u ∧ Frame [.masterFrames] w u) ∧
      (good → fn ≤ 15 → own → w.cc.state ≠ .mating → ∀ m, mode = some m →
        (∀ (d : Claimant) (g : Nat), claimAt u d g =
          if d = asClaimant h.station ∧ g = fn then some ⟨m, level⟩
          else if h.station = .front ∧ d = .unit then none
          else claimAt w d g) ∧
        Arbitrated u ∧ Replied h .done .empty w u ∧ Frame ([.masterFrames, .claims] ++ arbitrated) w u ∧
        ∃ t, exec (.claim h fn mode level) s = .next t ∧ claimAt t (asClaimant h.station) fn = some ⟨m, level⟩)

/-- RELEASE removes the sender's claim on one function and nothing else (R111). -/
def Obligations.ReleaseRemovesOneClaim : Prop :=
  ∀ (h : ReqHdr) (fn : Nat) (s : State), Taken h allMasters s →
    let w := met h (.release h fn) s
    ∃ u, exec (.release h fn) s = .next (settle s (react Config.reactFuel u)) ∧
      (15 < fn → Replied h .badArg .empty w u ∧ Frame [.masterFrames] w u) ∧
      (fn ≤ 15 → claimAt w (asClaimant h.station) fn = none →
        Replied h .notFound .empty w u ∧ Frame [.masterFrames] w u) ∧
      (fn ≤ 15 → claimAt w (asClaimant h.station) fn ≠ none →
        (∀ (d : Claimant) (g : Nat), claimAt u d g =
          if d = asClaimant h.station ∧ g = fn then none else claimAt w d g) ∧
        Arbitrated u ∧ Replied h .done .empty w u ∧ Frame ([.masterFrames, .claims] ++ arbitrated) w u ∧
        ∃ t, exec (.release h fn) s = .next t ∧ claimAt t (asClaimant h.station) fn = none)

/-- RELEASE_ALL removes every claim of the sender, and from FRONT every UNIT claim as well (R112). -/
def Obligations.ReleaseAllRemovesTheSendersClaims : Prop :=
  ∀ (h : ReqHdr) (s : State), Taken h allMasters s →
    let w := met h (.releaseAll h) s
    ∃ u, exec (.releaseAll h) s = .next (settle s (react Config.reactFuel u)) ∧
      (∀ (d : Claimant) (g : Nat), claimAt u d g =
        if d = asClaimant h.station ∨ (h.station = .front ∧ d = .unit) then none else claimAt w d g) ∧
      Arbitrated u ∧ Replied h .done .empty w u ∧ Frame ([.masterFrames, .claims] ++ arbitrated) w u ∧
      ∃ t, exec (.releaseAll h) s = .next t ∧ ∀ g, claimAt t (asClaimant h.station) g = none

/-! ## Actuators -/

/-- ACT_TAKE makes the sender the holder of a free output, and ACT_GIVE gives the hold up, ending a run with GIVEN
(R163, R164, R162). -/
def Obligations.ActTakeAndGiveMoveTheHold : Prop :=
  ∀ (h : ReqHdr) (out : Nat) (s : State), Taken h allMasters s → h.broadcast = false →
    (let w := met h (.actTake h out) s
      ∃ u, exec (.actTake h out) s = .next (settle s (react Config.reactFuel u)) ∧
        (5 < out → Replied h .badArg .empty w u ∧ Frame [.masterFrames] w u) ∧
        ∀ ho : out < 6,
          let o : Fin 6 := ⟨out, ho⟩
          (actRecord w o = none → Replied h .notFound .empty w u ∧ Frame [.masterFrames] w u) ∧
          ∀ r, actRecord w o = some r →
            (r.state ≠ .ready ∨ (w.plan.active.acts[o]).fn = none →
              Replied h .refusedState .empty w u ∧ Frame [.masterFrames] w u) ∧
            (r.state = .ready → (w.plan.active.acts[o]).fn ≠ none →
              (∀ m, m ≠ h.station → w.act.outs[o].holder = some m →
                Replied h .heldBy (.holder m) w u ∧ Frame [.masterFrames] w u) ∧
              (w.act.outs[o].holder = some h.station → Replied h .done .empty w u ∧ Frame [.masterFrames] w u) ∧
              (w.act.outs[o].holder = none →
                u.act.outs[o] = { w.act.outs[o] with holder := some h.station } ∧
                (∀ k : Fin 6, k ≠ o → u.act.outs[k] = w.act.outs[k]) ∧
                actRecord u o =
                  some { r with holder := some h.station, run := w.act.outs[o].run, lastEnd := w.act.outs[o].lastEnd } ∧
                Replied h .done .empty w u ∧ Frame [.masterFrames, .outs, .store, .handed] w u))) ∧
    (let w := met h (.actGive h out) s
      ∃ u, exec (.actGive h out) s = .next (settle s (react Config.reactFuel u)) ∧
        (5 < out → Replied h .badArg .empty w u ∧ Frame [.masterFrames] w u) ∧
        ∀ ho : out < 6,
          let o : Fin 6 := ⟨out, ho⟩
          (actRecord w o = none → Replied h .notFound .empty w u ∧ Frame [.masterFrames] w u) ∧
          (actRecord w o ≠ none →
            (∀ m, m ≠ h.station → w.act.outs[o].holder = some m →
              Replied h .heldBy (.holder m) w u ∧ Frame [.masterFrames] w u) ∧
            (w.act.outs[o].holder = none → Replied h .done .empty w u ∧ Frame [.masterFrames] w u) ∧
            (w.act.outs[o].holder = some h.station →
              (running w o = true →
                u.act.outs[o] = ⟨none, .idle, .none, none, .stopped, none, .stopped, some .given⟩) ∧
              (running w o = false → u.act.outs[o] = { w.act.outs[o] with holder := none }) ∧
              (∀ k : Fin 6, k ≠ o → u.act.outs[k] = w.act.outs[k]) ∧
              Replied h .done .empty w u ∧ Frame [.masterFrames, .outs, .store, .handed] w u)))

/-- ACT_MOVE is judged in the order of R167, and one that passes starts the run it asks for; a CHECK of the output that holds
the source is abandoned without a result, and its sequencer goes on (R97). -/
def Obligations.ActMoveStartsTheRun : Prop :=
  ∀ (h : ReqHdr) (out : Nat) (ask : MoveAsk) (s : State), Taken h allMasters s → h.broadcast = false →
    let c : Instr :=
      match ask with
      | .direction d => .actMoveDirection h out d
      | .target g => .actMoveTarget h out g
      | .energise => .actMoveEnergise h out
    let w := met h c s
    let good : Prop := out < 6 ∧ ∀ g, ask = .target g → g ≤ 4095
    ∃ u, exec c s = .next (settle s (react Config.reactFuel u)) ∧
      (¬ good → Replied h .badArg .empty w u ∧ Frame [.masterFrames] w u) ∧
      (good → ∀ ho : out < 6,
        let o : Fin 6 := ⟨out, ho⟩
        let e := w.plan.active.acts[o]
        let x := w.act.outs[o]
        let suits : Prop :=
          match ask with
          | .direction _ => e.cls = .motor
          | .energise => e.cls = .valve
          | .target g => e.cls = .motor ∧ ∃ l, e.link = some l ∧ l.low ≤ g ∧ g ≤ l.high
        let barred (r : ActRec) : Prop := r.state ≠ .ready ∨ e.fn = none ∨ driveSupply w = false
        let blocked : Prop :=
          match ask with
          | .target _ => referenced w o = false
          | .direction .a => ∃ l, e.link = some l ∧ referenced w o = true ∧ l.high ≤ countOf w o
          | .direction .b => ∃ l, e.link = some l ∧ referenced w o = true ∧ countOf w o ≤ l.low
          | .energise => False
        let free : Prop := ∀ i ∈ e.interlocks, interlockHolds w i = true
        (actRecord w o = none → Replied h .notFound .empty w u ∧ Frame [.masterFrames] w u) ∧
        ∀ r, actRecord w o = some r →
          (x.holder = none → Replied h .refusedState .empty w u ∧ Frame [.masterFrames] w u) ∧
          (∀ m, m ≠ h.station → x.holder = some m →
            Replied h .heldBy (.holder m) w u ∧ Frame [.masterFrames] w u) ∧
          (x.holder = some h.station → x.run ≠ .idle → Replied h .busy .empty w u ∧ Frame [.masterFrames] w u) ∧
          (x.holder = some h.station → x.run = .idle → ¬ suits →
            Replied h .badArg .empty w u ∧ Frame [.masterFrames] w u) ∧
          (x.holder = some h.station → x.run = .idle → suits → barred r ∨ blocked ∨ ¬ free →
            Replied h .refusedState .empty w u ∧ Frame [.masterFrames] w u) ∧
          (x.holder = some h.station → x.run = .idle → suits → ¬ barred r → ¬ blocked → free →
            Replied h .accepted .empty w u ∧
            (∀ k : Fin 6, k ≠ o → u.act.outs[k] = w.act.outs[k]) ∧
            (∀ d, ask = .direction d →
              u.act.outs[o] =
                ⟨some h.station, if d = .a then .runA else .runB, .direction, none, .running, e.runLimit, .stopped,
                  x.lastEnd⟩) ∧
            (∀ g, ask = .target g →
              u.act.outs[o] =
                if g = countOf w o then
                  ⟨some h.station, .idle, .none, none, .stopped, none, .stopped, some .target⟩
                else
                  ⟨some h.station, if countOf w o < g then .runA else .runB, .target, some g, .running, e.runLimit,
                    .stopped, x.lastEnd⟩) ∧
            (ask = .energise →
              u.act.outs[o] =
                ⟨some h.station, .energised, .energise, none, .stopped, none, .stopped, x.lastEnd⟩) ∧
            actRecord u o =
              some { r with
                holder := some h.station, run := u.act.outs[o].run, lastEnd := u.act.outs[o].lastEnd } ∧
            ((∀ n, w.probe.holder = some n → outputOf w.probe.seqs[n] ≠ some o) →
              Frame [.masterFrames, .outs, .store, .handed] w u) ∧
            ∀ n, w.probe.holder = some n → outputOf w.probe.seqs[n] = some o →
              let q := w.probe.seqs[n]
              u.probe.holder = none ∧
              (q.remaining ≤ 1 → u.probe.seqs[n].index = none ∧ u.probe.seqs[n].remaining = 0 ∧
                u.probe.seqs[n].tc = true) ∧
              (1 < q.remaining → u.probe.seqs[n].remaining < q.remaining) ∧
              (∀ k : Fin 4, k ≠ n → u.probe.seqs[k] = w.probe.seqs[k]) ∧
              Frame [.masterFrames, .outs, .store, .handed, .seqs, .source] w u))

/-- ACT_STOP ends the run in progress with STOPPED, from any master; the hold stays (R169). -/
def Obligations.ActStopEndsTheRun : Prop :=
  ∀ (h : ReqHdr) (out : Nat) (s : State), Taken h allMasters s →
    let w := met h (.actStop h out) s
    ∃ u, exec (.actStop h out) s = .next (settle s (react Config.reactFuel u)) ∧
      (5 < out → Replied h .badArg .empty w u ∧ Frame [.masterFrames] w u) ∧
      ∀ ho : out < 6,
        let o : Fin 6 := ⟨out, ho⟩
        (actRecord w o = none → Replied h .notFound .empty w u ∧ Frame [.masterFrames] w u) ∧
        ∀ r, actRecord w o = some r →
          Replied h .done .empty w u ∧
          (running w o = false → Frame [.masterFrames] w u) ∧
          (running w o = true →
            u.act.outs[o] = ⟨w.act.outs[o].holder, .idle, .none, none, .stopped, none, .stopped, some .stopped⟩ ∧
            (∀ k : Fin 6, k ≠ o → u.act.outs[k] = w.act.outs[k]) ∧
            actRecord u o = some { r with holder := w.act.outs[o].holder, run := .idle, lastEnd := some .stopped } ∧
            Frame [.masterFrames, .outs, .store, .handed] w u)

/-! ## Requests of the coupling, lamp, source and plan blocks -/

/-- UNIT_ASSIGN gives the unit its number, and the REAR state follows it (R178). That the reply DONE carries the new number is
the model's choice (log entry 49), and so are the correlation number and the kept number of the assignment made behind (log
entries 18 and 48). -/
def Obligations.UnitAssignNumbersTheUnit : Prop :=
  ∀ (h : ReqHdr) (n : Nat) (s : State), Taken h [.front] s → h.broadcast = false →
    let w := met h (.unitAssign h n) s
    let good : Prop := 1 ≤ n ∧ n ≤ 4
    let served : Prop := w.cc.state = .mating ∨ w.cc.state = .probing ∨ w.cc.state = .serving
    ∃ u, exec (.unitAssign h n) s = .next (settle s (react Config.reactFuel u)) ∧
      (¬ good → Replied h .badArg .empty w u ∧ Frame [.masterFrames] w u) ∧
      (good → ¬ served → Replied h .refusedState .empty w u ∧ Frame [.masterFrames] w u) ∧
      (good → served →
        Replied h .done .empty w u ∧ u.chain.own = n ∧ u.chain.helloRepeat = .stopped ∧
        (n = w.chain.own → Frame [.masterFrames, .repeats] w u) ∧
        (n ≠ w.chain.own → n = 4 →
          (w.chain.rear = .sensed ∨ rearFeed w = true →
            u.chain.rear = .barred ∧ u.chain.bar = .number ∧ rearFeed u = false) ∧
          (rearFeed w = true → u.chain.down = []) ∧
          (w.chain.rear = .vacant ∨ w.chain.rear = .barred →
            u.chain = { w.chain with own := n, helloRepeat := .stopped } ∧
            Frame [.masterFrames, .number, .repeats] w u) ∧
          (w.chain.rear = .linked → ∀ x, unitRecord w = some x → unitRecord u = some { x with linked := false })) ∧
        (n ≠ w.chain.own → n ≤ 3 →
          (w.chain.rear = .vacant ∨ w.chain.rear = .sensed ∨ w.chain.rear = .feeding ∨ w.chain.rear = .lost →
            u.chain = { w.chain with own := n, helloRepeat := .stopped } ∧
            Frame [.masterFrames, .number, .repeats] w u) ∧
          (w.chain.rear = .linked →
            u.chain.rear = .linked ∧ u.chain.assignOut = true ∧ u.chain.assigned = n + 1 ∧
            (∀ x, unitRecord w = some x → unitRecord u = some { x with number := n + 1 }) ∧
            ∃ f, (line u .rear).waiting = (line w .rear).waiting ++ [f] ∧ f.code = codeUnitAssign ∧
              f.body = .number (n + 1)) ∧
          (w.chain.rear = .barred → w.chain.bar = .number → u.chain.rear = .sensed ∧ u.chain.bar = .none) ∧
          (w.chain.rear = .barred → w.chain.bar ≠ .number → u.chain.rear = .barred)) ∧
        Frame [.masterFrames, .number, .repeats, .rear, .rearFrames, .forward, .fresh, .store, .handed] w u ∧
        ∃ t, exec (.unitAssign h n) s = .next t ∧ t.chain.own = n)

/-- MOTION sets motion to PARKED or MOVING, and the hold and the runs are judged: a run whose conditions fail ends with
INTERLOCK, every other run goes on (R78, R123, R125, R165, R166). -/
def Obligations.MotionSetsMotion : Prop :=
  ∀ (h : ReqHdr) (v : Option Motion) (s : State), Taken h [.front] s →
    let w := met h (.motion h v) s
    ∃ u, exec (.motion h v) s = .next (settle s (react Config.reactFuel u)) ∧
      (v = none ∨ v = some .unknown → Replied h .badArg .empty w u ∧ Frame [.masterFrames] w u) ∧
      ∀ m, v = some m → m ≠ .unknown →
        u.cc.motion = m ∧ Replied h .done .empty w u ∧
        (holdEffective u = (w.lines.svcHold && (w.cc.state = .localAwake ||
          ((w.cc.state = .probing || w.cc.state = .serving) && m = .parked)))) ∧
        (∀ (d : Claimant) (f : Nat), claimAt u d f =
          if holdEffective w = true ∧ holdEffective u = false ∧ d = .service ∧ f ≤ 10 then none else claimAt w d f) ∧
        (∀ o : Fin 6, running w o = true → interlocksHold u o = false →
          running u o = false ∧ u.act.outs[o].lastEnd = some .interlock) ∧
        (∀ o : Fin 6, u.act.outs[o] =
          if running w o = true ∧ runMayGoOn (mapCc (fun c => { c with motion := m }) w) o = false then
            ⟨w.act.outs[o].holder, .idle, .none, none, .stopped, none, .stopped, some .interlock⟩
          else w.act.outs[o]) ∧
        Arbitrated u ∧
        Frame ([.masterFrames, .motion, .claims, .outs, .store, .handed] ++ arbitrated) w u

/-- A PHASE frame and the phase timer move the timebase, and every FLASH channel follows it; a clear window ends
(R134, R132, R130, R139). That the phase timer's command does nothing while the timebase is STOPPED is the model's choice
(log entry 1). -/
def Obligations.TimebaseMovesTheFlashingLamps : Prop :=
  (∀ (h : ReqHdr) (s : State), Taken h [.front] s →
    let w := met h (.phase h) s
    ∃ u, exec (.phase h) s = .next (settle s (react Config.reactFuel u)) ∧
      u.lamp.timebase = (if w.lamp.timebase = .stopped then .stopped else .on) ∧
      (w.lamp.timebase ≠ .stopped → u.lamp.phaseTimer = .running ∧
        ∀ ch : Fin 24, u.lamp.channels[ch].driven = driveCondition .on w.lamp.channels[ch] ∧
          u.lamp.channels[ch].command = w.lamp.channels[ch].command) ∧
      (w.lamp.timebase = .stopped → Frame [.masterFrames] w u) ∧
      Replied h .done .empty w u ∧ Frame [.masterFrames, .drive] w u) ∧
    (∀ s : State, s.powered = true →
      ∃ u, exec .flashPhaseChange s = .next (settle s (react Config.reactFuel u)) ∧
        (s.lamp.timebase = .stopped → u = s) ∧
        (s.lamp.timebase ≠ .stopped →
          u.lamp.timebase = (if s.lamp.timebase = .on then .off else .on) ∧ u.lamp.phaseTimer = .running ∧
          ∀ ch : Fin 24, u.lamp.channels[ch].driven = driveCondition u.lamp.timebase s.lamp.channels[ch] ∧
            u.lamp.channels[ch].command = s.lamp.channels[ch].command) ∧
        Frame [.drive] s u) ∧
    ∀ (ch : Fin 24) (s : State), s.powered = true →
      ∃ u, exec (.clearWindowExpiry ch) s = .next (settle s (react Config.reactFuel u)) ∧
        u.lamp.channels[ch] = { s.lamp.channels[ch] with clearWindow := .stopped } ∧
        (∀ k : Fin 24, k ≠ ch → u.lamp.channels[k] = s.lamp.channels[k]) ∧ Frame [.faults] s u

/-- FAULT_CLEAR returns a SHORT channel to NORMAL with its clear window running, refuses a LOCKED one, and ALL clears
every SHORT (R138). -/
def Obligations.FaultClearClearsShorts : Prop :=
  ∀ (h : ReqHdr) (target : ClearTarget) (s : State), Taken h [.front, .service] s →
    let w := met h (.faultClear h target) s
    ∃ u, exec (.faultClear h target) s = .next (settle s (react Config.reactFuel u)) ∧
      (∀ n, target = .channel n → 23 < n → Replied h .badArg .empty w u ∧ Frame [.masterFrames] w u) ∧
      (∀ ch : Fin 24, target = .channel ch.val →
        (w.lamp.channels[ch].fault = .locked → Replied h .refusedState .empty w u ∧ Frame [.masterFrames] w u) ∧
        (w.lamp.channels[ch].fault = .normal ∨ w.lamp.channels[ch].fault = .opened →
          Replied h .done .empty w u ∧ Frame [.masterFrames] w u) ∧
        (w.lamp.channels[ch].fault = .short →
          u.lamp.channels[ch].fault = .normal ∧ u.lamp.channels[ch].clearWindow = .running ∧
          (∀ k : Fin 24, k ≠ ch → u.lamp.channels[k].fault = w.lamp.channels[k].fault) ∧
          (∀ r, lampRecord w ch = some r → r.loadClass ≠ .noLoad →
            lampRecord u ch = some { r with state := .present }) ∧
          Arbitrated u ∧ Replied h .done .empty w u ∧
          Frame ([.masterFrames, .store, .handed, .faults] ++ arbitrated) w u)) ∧
      (target = .all →
        (∀ ch : Fin 24, u.lamp.channels[ch].fault =
          if w.lamp.channels[ch].fault = .short then .normal else w.lamp.channels[ch].fault) ∧
        (∀ ch : Fin 24, w.lamp.channels[ch].fault = .short → u.lamp.channels[ch].clearWindow = .running) ∧
        Arbitrated u ∧
        Replied h .done
          (.cleared ((List.finRange 24).filter fun ch => w.lamp.channels[ch].fault = .short).length
            ((List.finRange 24).filter fun ch => w.lamp.channels[ch].fault = .locked).length) w u ∧
        Frame ([.masterFrames, .store, .handed, .faults] ++ arbitrated) w u)

/-- REPROBE is judged in the order of R81, and one that passes takes the part into PROBING: the active plan is loaded with
its effects on the LAMP records, the lamps, the debouncers and the runs, and the feed is off, a live UNIT record LOST (R81,
R68, R46, R47, R147, R166, R176). The model's choices: the feed is suspended before the load (log entry 52), and the order in
which a load acts on the runs (log entry 47). -/
def Obligations.ReprobeStartsABringUp : Prop :=
  ∀ (h : ReqHdr) (s : State), Taken h [.front, .service] s →
    let w := met h (.reprobe h) s
    ∃ u, exec (.reprobe h) s = .next (settle s (react Config.reactFuel u)) ∧
      (w.plan.commit ≠ none → Replied h .busy .empty w u ∧ Frame [.masterFrames] w u) ∧
      (w.plan.commit = none → (w.cc.state ≠ .serving ∨ (h.station = .front ∧ w.cc.motion ≠ .parked)) →
        Replied h .refusedState .empty w u ∧ Frame [.masterFrames] w u) ∧
      (w.plan.commit = none → w.cc.state = .serving → (h.station = .front → w.cc.motion = .parked) →
        (w.cc.bringUp = true → Replied h .busy .empty w u ∧ Frame [.masterFrames] w u) ∧
        (w.cc.bringUp = false →
          u.cc.state = .probing ∧ u.cc.deadline = .running ∧ u.cc.reprobe = true ∧ u.cc.bringUp = true ∧
          u.cc.causes.timeout = false ∧ u.cc.storeTrouble = false ∧ rearFeed u = false ∧
          (∀ d f, claimAt u d f = claimAt w d f) ∧
          (∀ n : Fin 4, n.val < 3 → u.probe.seqs[n].origin = .bringUp) ∧
          PlanTaken w u ∧ Arbitrated u ∧ u.cc.inventoryIdent = w.cc.inventoryIdent ∧
          (rearFeed w = false → u.chain = w.chain) ∧
          (rearFeed w = true →
            u.chain = { w.chain with
              rear := .sensed, helloTimer := .stopped, silence := .stopped, assignOut := false, down := [] } ∧
            (∀ r, unitRecord u = some r → r.linked = false) ∧
            ((∀ q ∈ w.store.queue, q.subject ≠ .unit) → ∀ r, unitRecord w = some r →
              unitRecord u = some { r with linked := false })) ∧
          Replied h .accepted .empty w u ∧
          ∀ p ∈ ([.powered, .lines, .motion, .events, .idle, .planStaging, .planStored, .frontSilent, .lampFlags,
            .probeMode, .driveSupply, .number, .stations, .queue] : List Piece), Piece.same w u p))

/-- UNIT_CLEAR is taken in LOCAL and in SERVING while parked, and puts every block to its reset but for the stored plan,
the commit in flight and the SERVICE port (R192). The model's choices: it keeps SUPPLY_EVENT (log entry 20), and inside the
bands that no command tells of, SUPPLY_LOW and THERMAL_WARN take free values (log entry 50). -/
def Obligations.UnitClearResetsTheUnit : Prop :=
  ∀ (h : ReqHdr) (s : State), Taken h [.service] s → h.broadcast = false →
    let w := met h (.unitClear h) s
    let taken : Prop := w.cc.state = .localAwake ∨ (w.cc.state = .serving ∧ w.cc.motion = .parked)
    ∃ u, exec (.unitClear h) s = .next (settle s (react Config.reactFuel u)) ∧
      (¬ taken → Replied h .refusedState .empty w u ∧ Frame [.masterFrames] w u) ∧
      (taken →
        (u.cc.state = (if w.lines.cplSense then .mating else .localAwake) ∧
          u.cc.motion = (if w.lines.cplSense then .unknown else .parked) ∧
          u.cc.clearEvent = true ∧ u.cc.supplyEvent = w.cc.supplyEvent ∧ u.cc.inventoryIdent = 0 ∧
          u.cc.idleExpired = false) ∧
        (u.cc.origin = .none ∧ u.cc.debounceDone = false ∧ u.cc.deadline = .stopped ∧ u.cc.partingHold = .stopped ∧
          u.cc.bringUp = false ∧ u.cc.storeTrouble = false ∧ u.cc.reprobe = false ∧ u.cc.cycleRestore = false ∧
          u.cc.debounce = (if w.lines.cplSense = true ∧ w.lines.cplPresent = true then .running else .stopped)) ∧
        (u.cc.causes.timeout = false ∧ u.cc.causes.store = false ∧ u.cc.causes.chainLost = false ∧
          u.cc.causes.planFallback = (w.lines.planSel && (validPlan w).isNone) ∧ Reconciled u) ∧
        (u.plan.staging = none ∧ u.plan.stored = w.plan.stored ∧ u.plan.commit = w.plan.commit ∧
          u.plan.active = planToLoad w) ∧
        ((∀ k : Fin 40, u.store.records[k] = none) ∧ u.store.queue = []) ∧
        (∀ m : Master, queueOf u m = NoticeQueue.reset) ∧
        (noClaims u = true ∧ u.arb.frontSilent = false ∧ Arbitrated u) ∧
        (∀ ch : Fin 24, u.lamp.channels[ch].fault = .normal ∧ u.lamp.channels[ch].clearWindow = .stopped) ∧
        (u.lamp.supplyLow = !(w.lines.cplAbove22 && Config.freshAbove22 w.freshCount) ∧
          u.lamp.thermalWarn = (w.lines.hot && Config.freshHot w.freshCount) ∧ u.freshCount = w.freshCount + 1) ∧
        ((∀ n : Fin 4, u.probe.seqs[n] = Sequencer.idle) ∧ u.probe.holder = none ∧ u.probe.mode = .fixed ∧
          u.probe.last = 3) ∧
        (∀ i : Fin 10, u.input.inputs[i].level = .unknown ∧ u.input.inputs[i].settled = false ∧
          u.input.inputs[i].debounce = (if (u.plan.active.sensors[i]).cls = .switch then .running else .stopped) ∧
          u.input.inputs[i].snapshot = none ∧ u.input.inputs[i].pinClosed = w.input.inputs[i].pinClosed) ∧
        (∀ k : Fin 6, u.input.sense[k] = .unknown) ∧
        (∀ c : Fin 2, u.input.counters[c].count = 0 ∧ u.input.counters[c].referenced = false) ∧
        (∀ o : Fin 6, u.act.outs[o] = Actuator.reset) ∧ driveSupply u = driveSupply w ∧
        (u.chain = Chain.reset w.lines.rearSense) ∧
        ((station u .front).attached = false ∧ (station u .chassis).attached = false ∧
          station u .service = station w .service) ∧
        ((line u .front).waiting = [] ∧ (line u .chassis).waiting = []) ∧
        ∃ f, (line u .service).waiting = [f] ∧ f.kind = .reply ∧ f.dest = h.src ∧ f.corr = h.corr ∧
          f.code = resultCode .done)

/-- PLAN_OPEN, PLAN_DISCARD and PLAN_WRITE change the staging plan alone, PLAN_WRITE in the order of R50 (R49, R50). -/
def Obligations.StagingRequestsWriteTheStagingPlan : Prop :=
  ∀ (h : ReqHdr) (s : State), Taken h [.service] s → h.broadcast = false →
    (∃ t u, exec (.planOpen h) s = .next t ∧ t = settle s (react Config.reactFuel u) ∧
      let w := met h (.planOpen h) s
      u.plan.staging = some w.plan.active ∧ t.plan.staging = some w.plan.active ∧ Replied h .done .empty w u ∧
        Frame [.masterFrames, .planStaging] w u) ∧
    (∃ t u, exec (.planDiscard h) s = .next t ∧ t = settle s (react Config.reactFuel u) ∧
      let w := met h (.planDiscard h) s
      u.plan.staging = none ∧ t.plan.staging = none ∧ Replied h .done .empty w u ∧
        Frame [.masterFrames, .planStaging] w u) ∧
    ∀ (index : Nat) (e : EntryArg),
      let w := met h (.planWrite h index e) s
      ∃ t u, exec (.planWrite h index e) s = .next t ∧ t = settle s (react Config.reactFuel u) ∧
        (w.plan.commit ≠ none → Replied h .busy .empty w u ∧ Frame [.masterFrames] w u) ∧
        (w.plan.commit = none → w.plan.staging = none →
          Replied h .refusedState .empty w u ∧ Frame [.masterFrames] w u) ∧
        (w.plan.commit = none → ∀ p, w.plan.staging = some p →
          (writeEntry p index e = none → Replied h .badArg .empty w u ∧ Frame [.masterFrames] w u) ∧
          (∀ l (hl : index < 24), e = .lamp l → lampEntryOk l = true →
            t.plan.staging = some { p with lamps := p.lamps.set index l } ∧ Replied h .done .empty w u ∧
              Frame [.masterFrames, .planStaging] w u) ∧
          (∀ l (hl : index - 24 < 10), 24 ≤ index → e = .sensor l → sensorEntryOk l = true →
            t.plan.staging = some { p with sensors := p.sensors.set (index - 24) l } ∧ Replied h .done .empty w u ∧
              Frame [.masterFrames, .planStaging] w u) ∧
          (∀ l (hl : index - 34 < 6), 34 ≤ index → e = .actuator l → actEntryOk l = true →
            t.plan.staging = some { p with acts := p.acts.set (index - 34) l } ∧ Replied h .done .empty w u ∧
              Frame [.masterFrames, .planStaging] w u))

/-- PLAN_COMMIT is judged in the order of R52; one that passes empties staging and starts the write, and the commit
completion makes the image the stored plan, its check matching (R38, R52, R53). That a commit completion with no commit in
flight does nothing is the model's choice (log entry 1), and so are the check, a free value (log entry 51), and that the
place of the stored plan holds nothing from the acceptance until the write completes (log entry 21). -/
def Obligations.CommitWritesTheStoredPlan : Prop :=
  (∀ (h : ReqHdr) (ident : Nat) (s : State), Taken h [.service] s → h.broadcast = false →
    let w := met h (.planCommit h ident) s
    let served : Prop := w.cc.state = .localAwake ∨ (w.cc.state = .serving ∧ w.cc.motion = .parked)
    let fresh : Prop := 2 ≤ ident ∧ ident ≤ 65535 ∧ ident ≠ w.plan.active.ident ∧ ident ≠ w.cc.inventoryIdent ∧
      ∀ p, validPlan w = some p → ident ≠ p.ident
    ∃ u, exec (.planCommit h ident) s = .next (settle s (react Config.reactFuel u)) ∧
      (w.plan.commit ≠ none → Replied h .busy .empty w u ∧ Frame [.masterFrames] w u) ∧
      (w.plan.commit = none → ¬ served → Replied h .refusedState .empty w u ∧ Frame [.masterFrames] w u) ∧
      (w.plan.commit = none → served → ¬ fresh → Replied h .badArg .empty w u ∧ Frame [.masterFrames] w u) ∧
      (w.plan.commit = none → served → fresh → w.plan.staging = none →
        Replied h .refusedState .empty w u ∧ Frame [.masterFrames] w u) ∧
      (w.plan.commit = none → served → fresh → ∀ p, w.plan.staging = some p →
        (∀ k, firstFailing p = some k → Replied h .badPlan (.entryIndex k) w u ∧ Frame [.masterFrames] w u) ∧
        (firstFailing p = none →
          u.plan.staging = none ∧ u.plan.stored = none ∧ u.plan.commit = some { p with ident := ident } ∧
          Replied h .accepted .empty w u ∧ Frame [.masterFrames, .planStaging, .planStored] w u ∧
          ∃ t, exec (.planCommit h ident) s = .next t ∧ t.plan.commit = some { p with ident := ident } ∧
            t.plan.stored = none))) ∧
    ∀ s : State, s.powered = true →
      ∃ u, exec .commitCompletion s = .next (settle s (react Config.reactFuel u)) ∧
        (s.plan.commit = none → u = s) ∧
        ∀ p, s.plan.commit = some p →
          u.plan.stored = some ⟨p, Config.planCheck p⟩ ∧ validPlan u = some p ∧ u.plan.commit = none ∧
          (∃ t, exec .commitCompletion s = .next t ∧ validPlan t = some p ∧ t.plan.commit = none) ∧
          (s.cc.state = .mating ∧ s.cc.debounceDone = true ∧ s.lines.cplSense = true ∧ s.lines.cplPresent = true →
            u.cc.state = .probing ∧ u.cc.debounceDone = false) ∧
          (¬ (s.cc.state = .mating ∧ s.cc.debounceDone = true ∧ s.lines.cplSense = true ∧ s.lines.cplPresent = true) →
            Frame [.planStored] s u)

/-! ## Probe requests -/

/-- PROBE_RUN loads the program it carries and reaches its first subject, and PROBE_STEP lets a waiting STEP program take one
step (R86, R87, R99, R100). That a stopped sequencer's request leaves the queue before the load is the order of log
entry 19. -/
def Obligations.ProbeRunAndStep : Prop :=
  ∀ (h : ReqHdr) (sq : Nat) (s : State), Taken h [.service] s →
    (h.broadcast = false → ∀ a : RunArgs,
      let w := met h (.probeRun h sq a) s
      ∃ u, exec (.probeRun h sq a) s = .next (settle s (react Config.reactFuel u)) ∧
        (3 < sq → Replied h .badArg .empty w u ∧ Frame [.masterFrames] w u) ∧
        (sq < 3 → w.cc.state = .probing → Replied h .busy .empty w u ∧ Frame [.masterFrames] w u) ∧
        ∀ hn : sq < 4, (sq < 3 → w.cc.state ≠ .probing) →
          let n : Fin 4 := ⟨sq, hn⟩
          (programOf a = none → Replied h .badArg .empty w u ∧ Frame [.masterFrames] w u) ∧
          ∀ p, programOf a = some p →
            u.probe.seqs[n].program = some p ∧ u.probe.seqs[n].origin = .service ∧ u.probe.seqs[n].mask = false ∧
            (w.probe.seqs[n].origin = .bringUp → u.cc.bringUp = false) ∧
            (let v := stopSeq n w
              let q : Sequencer :=
                ⟨some p, .service, .stepping, p.list.head?, p.list.length, false, false, false, none, .stopped⟩
              (w.probe.seqs[n].status = .idle → (∀ r ∈ w.store.queue, r.requester ≠ .sq n) → v.store = w.store) ∧
              (howToTake v q false = .source → u.probe.seqs[n] = { q with status := .waitSource }) ∧
              (howToTake v q false = .lit → u.probe.seqs[n] = { q with status := .waitLit }) ∧
              (howToTake v q false = .pause → u.probe.seqs[n] = { q with status := .pausedDemand }) ∧
              (howToTake v q false = .noRecord →
                u.probe.seqs[n] = { q with inserted := true, status := .waitSource } ∨
                  u.probe.seqs[n] = { q with inserted := true, status := .waitLit })) ∧
            Replied h .accepted .empty w u ∧
            Frame ([.masterFrames, .source, .seqs, .coupling, .store, .notice, .handed, .sense, .counters, .outs] ++
              arbitrated) w u) ∧
    (let w := met h (.probeStep h sq) s
      ∃ u, exec (.probeStep h sq) s = .next (settle s (react Config.reactFuel u)) ∧
        (3 < sq → Replied h .badArg .empty w u ∧ Frame [.masterFrames] w u) ∧
        ∀ hn : sq < 4,
          let n : Fin 4 := ⟨sq, hn⟩
          let q := w.probe.seqs[n]
          let stepping : Prop := (∃ p, q.program = some p ∧ p.mode = .step) ∧ q.status ≠ .idle ∧ q.status ≠ .done ∧
            q.mask = false
          let busy : Prop := q.status = .waitSource ∨ q.status = .stepping ∨ q.status = .waitLit ∨ q.status = .waitStore
          (¬ stepping → Replied h .refusedState .empty w u ∧ Frame [.masterFrames] w u) ∧
          (stepping → busy → Replied h .busy .empty w u ∧ Frame [.masterFrames] w u) ∧
          (stepping → ¬ busy →
            Replied h .accepted .empty w u ∧
            (howToTake w q true = .source → u.probe.seqs[n].status = .waitSource) ∧
            (howToTake w q true = .lit → u.probe.seqs[n].status = .waitLit) ∧
            Frame ([.masterFrames, .source, .seqs, .coupling, .store, .notice, .handed, .sense, .counters, .outs] ++
              arbitrated) w u))

/-- PROBE_MASK sets or clears the mask mark, PROBE_STOP empties the sequencer, and UNIT_SET sets the arbiter mode and
touches neither the holder nor the waiters (R101, R102, R73, R92). -/
def Obligations.ProbeMaskStopAndUnitSet : Prop :=
  (∀ (h : ReqHdr) (mode : Option ArbMode) (s : State), Taken h [.service] s → h.broadcast = false →
    let w := met h (.unitSet h mode) s
    ∃ u, exec (.unitSet h mode) s = .next (settle s (react Config.reactFuel u)) ∧
      (mode = none → Replied h .badArg .empty w u ∧ Frame [.masterFrames] w u) ∧
      ∀ m, mode = some m →
        u.probe = { w.probe with mode := m } ∧ Replied h .done .empty w u ∧
        Frame [.masterFrames, .probeMode] w u ∧
        ∃ t, exec (.unitSet h mode) s = .next t ∧ t.probe.mode = m) ∧
    ∀ (h : ReqHdr) (sq : Nat) (s : State), Taken h [.service] s → h.broadcast = false →
      (∀ b : Bool,
        let c : Instr := if b then .probeMask h sq else .probeUnmask h sq
        let w := met h c s
        ∃ u, exec c s = .next (settle s (react Config.reactFuel u)) ∧
          (3 < sq → Replied h .badArg .empty w u ∧ Frame [.masterFrames] w u) ∧
          ∀ hn : sq < 4,
            u.probe.seqs = w.probe.seqs.set sq { w.probe.seqs[sq] with mask := b } ∧
            Replied h .done .empty w u ∧ Frame [.masterFrames, .seqs] w u) ∧
      (let w := met h (.probeStop h sq) s
        ∃ u, exec (.probeStop h sq) s = .next (settle s (react Config.reactFuel u)) ∧
          (3 < sq → Replied h .badArg .empty w u ∧ Frame [.masterFrames] w u) ∧
          ∀ hn : sq < 4,
            let n : Fin 4 := ⟨sq, hn⟩
            Replied h .done .empty w u ∧
            (w.probe.seqs[n].status = .idle → Frame [.masterFrames] w u) ∧
            (w.probe.seqs[n].status ≠ .idle →
              u.probe.seqs[n] = Sequencer.idle ∧ u.probe.holder ≠ some n ∧
              (∀ q ∈ u.store.queue, q.requester ≠ .sq n) ∧
              (w.probe.seqs[n].origin = .bringUp → u.cc.bringUp = false) ∧
              Frame ([.masterFrames, .source, .seqs, .coupling, .store, .notice, .handed, .sense, .counters, .outs] ++
                arbitrated) w u))

/-! ## Supplies, lines and load pins -/

/-- A change of coupling supply presence acts on the MATING debounce, and where it takes the drive supply away every run ends
with SUPPLY; SUPPLY_LOW and THERMAL_WARN set their flag and the budget; each resolves again (R61, R116, R126, R142, R143,
R161). What each command tells of the supplies is the model's choice (log entry 6). -/
def Obligations.SupplyEventsSetFlagsAndBudget : Prop :=
  (∀ (p : Bool) (s : State), s.powered = true →
    (s.lines.cplPresent = p → exec (.cplSupPresenceChange p) s = .next s) ∧
    (s.lines.cplPresent ≠ p →
      ∃ u, exec (.cplSupPresenceChange p) s = .next (settle s (react Config.reactFuel u)) ∧
        u.lines.cplPresent = p ∧
        (s.cc.state = .mating → p = true → s.lines.cplSense = true → u.cc.debounce = .running) ∧
        (s.cc.state = .mating → p = false → u.cc.debounce = .stopped ∧ u.cc.debounceDone = false) ∧
        (s.cc.state ≠ .mating → u.cc = s.cc) ∧ driveSupply u = (p || s.act.batteryDrive) ∧
        (∀ o : Fin 6, u.act.outs[o] =
          if running s o = true ∧ driveSupply u = false then
            ⟨s.act.outs[o].holder, .idle, .none, none, .stopped, none, .stopped, some .supply⟩
          else s.act.outs[o]) ∧
        (driveSupply u = true → Frame ([.lines, .coupling] ++ arbitrated) s u) ∧
        Arbitrated u ∧ Frame ([.lines, .coupling, .outs, .store, .handed] ++ arbitrated) s u)) ∧
    (∀ (low : Bool) (s : State), s.powered = true →
      ∃ u, exec (.supplyLowChange low) s = .next (settle s (react Config.reactFuel u)) ∧
        u.lamp.supplyLow = low ∧ u.lamp.thermalWarn = s.lamp.thermalWarn ∧
        (coupled s = true → budget u = if low ∧ s.lamp.thermalWarn then 140 else if low ∨ s.lamp.thermalWarn then 280
          else 560) ∧
        (coupled s = false → budget u = if s.lamp.thermalWarn then 80 else 160) ∧
        Arbitrated u ∧ Frame ([.lines, .lampFlags] ++ arbitrated) s u) ∧
    ∀ (hot : Bool) (s : State), s.powered = true →
      ∃ u, exec (.thermalWarnChange hot) s = .next (settle s (react Config.reactFuel u)) ∧
        u.lamp.thermalWarn = hot ∧ u.lamp.supplyLow = s.lamp.supplyLow ∧
        (coupled s = true → budget u = if s.lamp.supplyLow ∧ hot then 140 else if s.lamp.supplyLow ∨ hot then 280
          else 560) ∧
        (coupled s = false → budget u = if hot then 80 else 160) ∧
        Arbitrated u ∧ Frame ([.lines, .lampFlags] ++ arbitrated) s u

/-- CPL_SENSE asserted enters MATING from QUIET and LOCAL, and returns from PARTING by its origin, a restart of the bring-up
loading the active plan with its effects (R65, R75, R68, R46, R47, R147, R166). The model's choices: it changes only the lines
in MATING, PROBING and SERVING (log entry 1), and the order in which a load acts on the runs (log entry 47). -/
def Obligations.CplSenseAssertedMatesOrReturns : Prop :=
  ∀ s : State, s.powered = true →
    ∃ u, exec .cplSenseAsserted s = .next (settle s (react Config.reactFuel u)) ∧
      u.lines = { s.lines with cplSense := true } ∧
      (s.cc.state = .quiet ∨ s.cc.state = .localAwake →
        u.cc.state = .mating ∧ u.cc.motion = .unknown ∧ u.cc.debounceDone = false ∧
        u.cc.debounce = (if s.lines.cplPresent then .running else .stopped) ∧
        Frame [.lines, .state, .coupling, .motion, .claims, .resolution, .drive, .rearFrames, .outs, .store, .handed]
          s u) ∧
      (s.cc.state = .parting → u.cc.partingHold = .stopped ∧ u.cc.origin = .none ∧
        (s.cc.origin = .probing → u.cc.state = .probing ∧ u.cc.deadline = .running ∧ u.cc.bringUp = true ∧
          PlanTaken s u ∧ Arbitrated u) ∧
        (s.cc.origin ≠ .probing → u.cc.state = .serving ∧ u.cc.cycleRestore = false ∧
          u.cc.motion = s.cc.motion ∧ u.cc.causes = s.cc.causes ∧ u.cc.inventoryIdent = s.cc.inventoryIdent ∧
          (∀ d f, claimAt u d f = claimAt s d f) ∧
          (s.cc.cycleRestore = true → boundChannels s ≠ [] → u.probe.seqs[0].program = some (cycleVerify s)))) ∧
      (s.cc.state = .mating ∨ s.cc.state = .probing ∨ s.cc.state = .serving → Frame [.lines] s u)

/-- CPL_SENSE negated returns MATING to a battery state, with the snapshot taken and the sequencers stopped where that is
QUIET, and takes PROBING and SERVING to PARTING, with the feed off and a live UNIT record LOST (R66, R62, R155, R74, R176). The
model's choices: it changes only the lines in QUIET, LOCAL and PARTING (log entry 1), and FRONT's holds are ended before
LOCAL or QUIET is chosen (log entry 23). -/
def Obligations.CplSenseNegatedReturnsOrParts : Prop :=
  ∀ s : State, s.powered = true →
    ∃ u, exec .cplSenseNegated s = .next (settle s (react Config.reactFuel u)) ∧
      u.lines = { s.lines with cplSense := false } ∧
      (s.cc.state = .mating →
        let awake : Prop := s.cc.idleExpired = false ∨ noClaims s = false ∨ s.lines.svcHold = true ∨
          ∃ (o : Fin 6) (m : Master), s.act.outs[o].holder = some m ∧ m ≠ .front
        (awake → u.cc.state = .localAwake ∧ u.input.inputs = s.input.inputs ∧ u.probe = s.probe) ∧
        (¬ awake →
          u.cc.state = .quiet ∧ (∀ n : Fin 4, u.probe.seqs[n].status = .idle) ∧
          (∀ n : Fin 4, s.probe.seqs[n].status ≠ .idle →
            u.probe.seqs[n] = Sequencer.idle ∧ ∀ q ∈ u.store.queue, q.requester ≠ .sq n) ∧
          ((∃ n : Fin 4, s.probe.seqs[n].status ≠ .idle ∧ s.probe.seqs[n].origin = .bringUp) → u.cc.bringUp = false) ∧
          ∀ i : Fin 10, u.input.inputs[i] =
            { s.input.inputs[i] with
              snapshot :=
                if (s.plan.active.sensors[i]).cls = .switch ∧ (s.plan.active.sensors[i]).wake = true then
                  some s.input.inputs[i].level
                else none }) ∧
        u.chain.up = [] ∧
        u.cc.motion = .parked ∧ u.cc.debounce = .stopped ∧ u.cc.debounceDone = false ∧ u.chain.own = 0 ∧
        u.chain.helloRepeat = .stopped ∧ u.chain.summaryRepeat = .stopped ∧
        station u .front = ⟨false, .stopped, false⟩ ∧ (queueOf u .front).pendingSent = false ∧
        ∀ o : Fin 6, u.act.outs[o].holder ≠ some .front) ∧
      (s.cc.state = .probing ∨ s.cc.state = .serving →
        u.cc.state = .parting ∧ u.cc.partingHold = .running ∧ u.cc.deadline = .stopped ∧
        u.cc.origin = (if s.cc.state = .serving then .serving else .probing) ∧
        (s.probe.seqs[0].origin = .cycle → u.cc.cycleRestore = true) ∧
        (∀ n : Fin 4, isLampSeq s.probe.seqs[n] = true → u.probe.seqs[n] = Sequencer.idle) ∧
        rearFeed u = false ∧ (rearFeed s = false → u.chain = s.chain) ∧
        (rearFeed s = true →
          u.chain = { s.chain with
            rear := .sensed, helloTimer := .stopped, silence := .stopped, assignOut := false, down := [] } ∧
          (∀ r, unitRecord u = some r → r.linked = false) ∧
          ((∀ q ∈ s.store.queue, q.subject ≠ .unit) → ∀ r, unitRecord s = some r →
            unitRecord u = some { r with linked := false })) ∧
        u.cc.motion = s.cc.motion ∧ u.chain.own = s.chain.own ∧
        (∀ d f, claimAt u d f = if holdEffective s = true ∧ d = .service ∧ f ≤ 10 then none else claimAt s d f)) ∧
      (s.cc.state = .quiet ∨ s.cc.state = .localAwake ∨ s.cc.state = .parting → Frame [.lines] s u)

/-- REAR_SENSE takes the chain from VACANT to SENSED or BARRED, and back to VACANT from every state; a feed overcurrent
bars a feeding unit. The negation releases the UNIT record and withdraws the chain block's request (R175, R176, R15). That
an assertion outside VACANT, a negation in VACANT and an overcurrent with the feed off change nothing more is the model's
choice (log entry 1). -/
def Obligations.RearSenseAndOvercurrentMoveTheRearState : Prop :=
  (∀ s : State, s.powered = true →
    ∃ u, exec .rearSenseAsserted s = .next (settle s (react Config.reactFuel u)) ∧
      (s.chain.rear = .vacant →
        u.chain.feedTry = true ∧ u.chain.rear = (if s.chain.own = 4 then .barred else .sensed) ∧
        (s.chain.own = 4 → u.chain.bar = .number)) ∧
      (s.chain.rear ≠ .vacant → Frame [.lines] s u) ∧ Frame [.lines, .rear] s u) ∧
    (∀ s : State, s.powered = true →
      ∃ u, exec .rearSenseNegated s = .next (settle s (react Config.reactFuel u)) ∧
        (s.chain.rear = .vacant → Frame [.lines] s u) ∧
        (s.chain.rear ≠ .vacant →
          u.chain.rear = .vacant ∧ u.chain.bar = .none ∧ u.chain.helloTimer = .stopped ∧ u.chain.silence = .stopped ∧
          u.chain.down = [] ∧ u.chain.assignOut = false ∧ u.chain.report = none ∧ rearFeed u = false ∧
          u.cc.causes = { s.cc.causes with chainLost := false } ∧
          (∀ q ∈ u.store.queue, q.requester ≠ .chain) ∧ (StoreBounded s → unitRecord u = none)) ∧
        u.chain.own = s.chain.own ∧ u.lines = { s.lines with rearSense := false } ∧
        Frame ([.lines, .rear, .rearFrames, .forward, .causes, .store, .notice, .handed, .seqs, .coupling, .sense, .counters,
          .outs] ++ arbitrated) s u) ∧
    ∀ s : State, s.powered = true →
      ∃ u, exec .feedOvercurrent s = .next (settle s (react Config.reactFuel u)) ∧
        (rearFeed s = false → u = s) ∧
        (rearFeed s = true →
          u.chain.rear = .barred ∧ u.chain.bar = .overcurrent ∧ rearFeed u = false ∧ u.chain.down = [] ∧
          u.chain.helloTimer = .stopped ∧ u.chain.silence = .stopped ∧
          ∀ r, unitRecord s = some r → unitRecord u = some { r with linked := false }) ∧
        Frame [.rear, .rearFrames, .forward, .store, .handed] s u

/-- STOP_FORCE with the coupling supply drives every channel bound to STOP at its STOP level, against every claim, but for
a channel in SHORT or LOCKED; its negation withdraws the LINE candidates (R126). -/
def Obligations.StopForceDrivesTheStopLamps : Prop :=
  (∀ s : State, s.powered = true → s.lines.cplPresent = true →
    ∃ u, exec .stopForceAsserted s = .next (settle s (react Config.reactFuel u)) ∧
      stopForceEffect u = true ∧
      (∀ (ch : Fin 24) (l : Nat), (channelFns s.plan.active ch).Nodup → stopLevel s.plan.active ch = some l →
        u.arb.resolved[ch] = ⟨.steady l, some .line, none, some 2⟩ ∧ u.arb.shed[ch] = false ∧
        (FaultState.latched s.lamp.channels[ch].fault = false →
          u.lamp.channels[ch].command = .steady l ∧ u.lamp.channels[ch].driven = true) ∧
        (FaultState.latched s.lamp.channels[ch].fault = true → u.lamp.channels[ch].driven = false)) ∧
      Arbitrated u ∧ Frame (.lines :: arbitrated) s u) ∧
    (∀ s : State, s.powered = true → s.lines.cplPresent = false →
      ∃ u, exec .stopForceAsserted s = .next (settle s (react Config.reactFuel u)) ∧
        stopForceEffect u = false ∧ Arbitrated u ∧ Frame (.lines :: arbitrated) s u) ∧
    ∀ s : State, s.powered = true →
      ∃ u, exec .stopForceNegated s = .next (settle s (react Config.reactFuel u)) ∧
        stopForceEffect u = false ∧ (∀ ch : Fin 24, u.arb.resolved[ch].cls ≠ some .line) ∧
        Arbitrated u ∧ Frame (.lines :: arbitrated) s u

/-- SVC_HOLD begins and ends the hold as the coupling state and motion allow: it wakes QUIET, and the end of the hold
removes SERVICE's claims on SIGNAL and MARKING functions (R62, R123 to R125). -/
def Obligations.ServiceHoldBeginsAndEnds : Prop :=
  (∀ s : State, s.powered = true →
    ∃ u, exec .svcHoldAsserted s = .next (settle s (react Config.reactFuel u)) ∧
      u.lines.svcHold = true ∧
      (s.cc.state = .quiet → u.cc.state = .localAwake ∧ u.cc.motion = .parked ∧ u.cc.idleExpired = false) ∧
      (s.cc.state ≠ .quiet → Frame (.lines :: arbitrated) s u) ∧
      (holdEffective u = true ↔ u.cc.state = .localAwake ∨
        ((u.cc.state = .probing ∨ u.cc.state = .serving) ∧ u.cc.motion = .parked)) ∧
      (∀ d f, claimAt u d f = claimAt s d f) ∧ Arbitrated u ∧
      (holdEffective u = true → ∀ ch : Fin 24, u.arb.resolved[ch].claimant ≠ some .front)) ∧
    ∀ s : State, s.powered = true →
      ∃ u, exec .svcHoldNegated s = .next (settle s (react Config.reactFuel u)) ∧
        holdEffective u = false ∧
        (∀ d f, claimAt u d f = if holdEffective s = true ∧ d = .service ∧ f ≤ 10 then none else claimAt s d f) ∧
        Arbitrated u ∧ Frame ([.lines, .claims] ++ arbitrated) s u

/-- A short on a driven channel, by a driver trip or by a sample above 128 units, latches it off: LOCKED in its clear
window, else SHORT; other samples count toward OPEN. Every lit step waiting on the channel then ends with the class and
band found, in ascending order of the sequencers: a VERIFY that matches applies nothing, one that does not inserts a
CLASSIFY, and a CLASSIFY applies its result (R8, R93, R94, R98, R131, R135 to R137). -/
def Obligations.SamplesAndTripsFindShortsAndOpens : Prop :=
  ∀ (ch : Fin 24) (tenths : Nat) (trip : Bool) (s : State), s.powered = true →
    let c : Instr := if trip then .driverTrip ch else .onSample ch tenths
    let x := s.lamp.channels[ch]
    let short : Bool := trip || decide (1280 < tenths)
    let scaled : Nat := scaledBand tenths x.command.level
    let cls : LoadClass :=
      if short then .short else if scaled = 0 then .noLoad else if scaled ≤ 8 then .led else .filament
    let band : Nat := if short then 127 else scaled
    let f : FaultState := if x.clearWindow = .running then .locked else .short
    let v : State :=
      if short then rearbitrate (mirrorLamp ch (fun r => { r with loadClass := .short, last := 127 }) (setFault ch f s))
      else countSample ch tenths s
    (x.driven = false → exec c s = .next (settle s (react Config.reactFuel s))) ∧
      (x.driven = true →
        exec c s = .next (settle s (react Config.reactFuel
          (forEach ((List.finRange 4).filter (waitsLit s ch)) (fun n => endLit n ch cls band) v)))) ∧
      (x.driven = true → short = true →
        v.lamp.channels[ch].fault = f ∧ v.lamp.channels[ch].clearWindow = .stopped ∧
        v.lamp.channels[ch].driven = false ∧ v.lamp.channels[ch].command = .off ∧
        (∀ k : Fin 24, k ≠ ch → v.lamp.channels[k].fault = s.lamp.channels[k].fault) ∧
        (∀ r, lampRecord s ch = some r →
          lampRecord v ch =
            some { r with
              loadClass := .short, last := 127, state := if x.clearWindow = .running then .locked else .short }) ∧
        Arbitrated v) ∧
      (x.driven = true → short = false →
        let low (r : LampRec) : Bool := tenths * 31 * 4 < 10 * r.expected * x.command.level
        (∀ r, lampRecord s ch = some r → r.expected ≠ 0 → low r = true →
          (x.fault = .normal → r.openMask = false → 2 ≤ x.lowCount →
            v.lamp.channels[ch].fault = .opened ∧ v.lamp.channels[ch].lowCount = 0 ∧
            lampRecord v ch = some { r with last := scaled, state := .opened }) ∧
          (x.fault ≠ .normal ∨ r.openMask = true ∨ x.lowCount < 2 →
            v.lamp.channels[ch] = { x with lowCount := min 3 (x.lowCount + 1), normalCount := 0 } ∧
            Frame [.drive] s v)) ∧
        (∀ r, lampRecord s ch = some r → r.expected ≠ 0 → low r = false →
          (x.fault = .opened → 2 ≤ x.normalCount →
            v.lamp.channels[ch].fault = .normal ∧ v.lamp.channels[ch].normalCount = 0 ∧
            lampRecord v ch = some { r with last := scaled, state := lampStateOf .normal r.loadClass }) ∧
          (x.fault ≠ .opened ∨ x.normalCount < 2 →
            v.lamp.channels[ch] = { x with normalCount := min 3 (x.normalCount + 1), lowCount := 0 } ∧
            Frame [.drive] s v)) ∧
        (lampRecord s ch = none ∨ (∃ r, lampRecord s ch = some r ∧ r.expected = 0) → v = s)) ∧
      Frame ([.faults, .store, .handed] ++ arbitrated) s v ∧
      (x.driven = true → ∀ n : Fin 4, waitsLit s ch n = true →
        (kindOf s.probe.seqs[n] = some .verify →
          ((∃ r, lampRecord v ch = some r ∧ r.loadClass = cls) → endLit n ch cls band v = finishStep n v) ∧
          ((∀ r, lampRecord v ch = some r → r.loadClass ≠ cls) →
            (endLit n ch cls band v).probe.seqs[n].inserted = true ∧
            (endLit n ch cls band v).store = v.store)) ∧
        (kindOf s.probe.seqs[n] = some .classify → (cls ≠ .noLoad ∨ channelBound s.plan.active ch = true) →
          (liveTag s (.lamp ch) ≠ none ∨ (s.store.queue = [] ∧ hasRoom s 1 = true)) →
          ∃ y, endLit n ch cls band v = finishStep n y ∧ y.probe = v.probe ∧ Arbitrated y ∧
            ∃ r, lampRecord y ch = some r ∧ r.loadClass = cls ∧ r.last = bandOf cls band ∧
              (cls ≠ .short → r.expected = r.last) ∧ r.state = lampStateOf y.lamp.channels[ch].fault cls))

/-- The debouncer of a SWITCH input: a pin change starts or stops its timer, and the timer's end settles the level or
writes the change into the input's record. A change without a record makes one, or pends for it, the level and count being
held; a later change of the same input replaces them, and one of another input asks for nothing. At either the function
levels are derived again, a move into CLOSED homes the counters that name the function, and the runs are judged; in QUIET
a change against the snapshot wakes the part, and a first settle fills an UNKNOWN snapshot (R43, R62, R147, R148, R150,
R155, R157, R166). The model's choices: a pin told its own level again and the expiry of a stopped debounce do nothing
(log entry 1), and the held contents name their function (log entry 28). -/
def Obligations.SwitchesSettleAndChange : Prop :=
  (∀ (i : Fin 10) (closed : Bool) (s : State), s.powered = true →
    (s.input.inputs[i].pinClosed = closed → exec (.switchPinChange i closed) s = .next s) ∧
    (s.input.inputs[i].pinClosed ≠ closed →
      ∃ u, exec (.switchPinChange i closed) s = .next (settle s (react Config.reactFuel u)) ∧
        u.input.inputs[i].pinClosed = closed ∧ u.input.inputs[i].level = s.input.inputs[i].level ∧
        ((s.plan.active.sensors[i]).cls = .switch →
          u.input.inputs[i].debounce =
            if s.input.inputs[i].level = contactOf closed then .stopped else .running) ∧
        ((s.plan.active.sensors[i]).cls ≠ .switch → u.input.inputs[i].debounce = s.input.inputs[i].debounce) ∧
        (∀ k : Fin 10, k ≠ i → u.input.inputs[k] = s.input.inputs[k]) ∧ Frame [.inputs] s u)) ∧
    ∀ (i : Fin 10) (s : State), s.powered = true →
      let x := s.input.inputs[i]
      ∃ u, exec (.switchDebounceExpiry i) s = .next (settle s (react Config.reactFuel u)) ∧
        (x.debounce = .stopped → u = s) ∧
        (x.debounce = .running →
          u.input.inputs[i].level = contactOf x.pinClosed ∧ u.input.inputs[i].debounce = .stopped ∧
          (∀ k : Fin 10, k ≠ i → u.input.inputs[k] = s.input.inputs[k]) ∧
          (∀ k : Fin 6, u.input.sense[k] = senseLevel u (22 + k.val)) ∧
          (∀ c : Fin 2,
            let homed : Prop := ∃ (o : Fin 6) (l : PosLink), (s.plan.active.acts[o]).link = some l ∧ l.counter = c.val ∧
              ∃ k : Fin 6, l.home = 22 + k.val ∧ s.input.sense[k] ≠ .closed ∧ u.input.sense[k] = .closed
            (homed → u.input.counters[c] = { s.input.counters[c] with count := 0, referenced := true }) ∧
              (¬ homed → u.input.counters[c] = s.input.counters[c])) ∧
          (RunsKeptOrEnded s u ∧ (∀ o : Fin 6, u.act.outs[o].holder = s.act.outs[o].holder) ∧
            (u.input.sense ≠ s.input.sense → RunsJudged u)) ∧
          (x.settled = false →
            u.input.inputs[i].settled = true ∧
            u.input.inputs[i].snapshot =
              (if s.cc.state = .quiet ∧ (s.plan.active.sensors[i]).cls = .switch ∧
                  (s.plan.active.sensors[i]).wake = true ∧ x.snapshot = some .unknown then
                some (contactOf x.pinClosed)
              else x.snapshot) ∧
            (∀ k, sensorRecord u k = sensorRecord s k) ∧ u.store.queue = s.store.queue ∧
            Frame [.inputs, .sense, .counters, .outs, .store, .handed] s u) ∧
          (x.settled = true →
            let wakes : Prop := s.cc.state = .quiet ∧ (s.plan.active.sensors[i]).cls = .switch ∧
              (s.plan.active.sensors[i]).wake = true ∧
              (x.snapshot = some .opened ∧ x.pinClosed = true ∨ x.snapshot = some .closed ∧ x.pinClosed = false)
            (wakes → u.cc.state = .localAwake ∧ u.cc.motion = .parked ∧ u.cc.idleExpired = false) ∧
            (¬ wakes → u.cc.state = s.cc.state) ∧ u.input.inputs[i].snapshot = x.snapshot) ∧
          (x.settled = true → ∀ r, sensorRecord s i = some r →
            let v := if x.pinClosed then 1 else 0
            sensorRecord u i =
              some { r with
                raw := v, value := v, band := .outside, changeCount := r.changeCount + 1, state := .valid }) ∧
          (x.settled = true → sensorRecord s i = none → (s.plan.active.sensors[i]).cls ≠ .unused →
            (s.store.queue = [] → hasRoom s 1 = true →
              ∃ r, sensorRecord u i = some r ∧ r.resistive = false ∧ r.fn = (s.plan.active.sensors[i]).fn ∧
                r.value = (if x.pinClosed then 1 else 0) ∧ r.changeCount = 1 ∧ r.state = .valid) ∧
            (isPending s .coupling = false → (s.store.queue ≠ [] ∨ hasRoom s 1 = false) →
              u.store.queue = s.store.queue ++ [⟨.coupling, .sensor i, 1, none⟩] ∧
              u.cc.heldSwitch = some ⟨i, x.pinClosed, 1, (s.plan.active.sensors[i]).fn⟩ ∧ sensorRecord u i = none)) ∧
          (x.settled = true → sensorRecord s i = none → (s.plan.active.sensors[i]).cls = .unused →
            sensorRecord u i = none ∧ u.store.queue = s.store.queue) ∧
          (x.settled = true → isPending s .coupling = true →
            u.store.queue = s.store.queue ∧ (sensorRecord s i = none → sensorRecord u i = none) ∧
            ∀ hs, s.cc.heldSwitch = some hs →
              u.cc.heldSwitch =
                some (if hs.input = i then { hs with closed := x.pinClosed, count := hs.count + 1 } else hs)))

/-- An encoder step moves its counter by one within 0 and 4095, and where the count changes it acts on the linked run; a phase
error unreferences the counter, updates the linked record and ends a TARGET run with INTERLOCK (R6, R156, R166, R167). -/
def Obligations.EncoderMovesTheCounter : Prop :=
  (∀ (c : Fin 2) (p : Phase) (s : State), s.powered = true →
    let x := s.input.counters[c]
    let up : Bool := match p with | .a => x.phaseA = x.phaseB | .b => x.phaseA ≠ x.phaseB
    let n : Nat := if up then min 4095 (x.count + 1) else x.count - 1
    ∃ u, exec (.encoderStep c p) s = .next (settle s (react Config.reactFuel u)) ∧
      u.input.counters[c] =
        ⟨n, x.referenced, if p = .a then !x.phaseA else x.phaseA, if p = .b then !x.phaseB else x.phaseB⟩ ∧
      (∀ k : Fin 2, k ≠ c → u.input.counters[k] = s.input.counters[k]) ∧
      (n = x.count → Frame [.counters] s u) ∧
      (n ≠ x.count →
        ∀ (o : Fin 6) (g : Nat), counterOf s o = some c → s.act.outs[o].kind = .target → s.act.outs[o].target = some g →
        (s.act.outs[o].run = .runA ∧ g ≤ n ∨ s.act.outs[o].run = .runB ∧ n ≤ g) →
        u.act.outs[o] = ⟨s.act.outs[o].holder, .idle, .none, none, .stopped, none, .stopped, some .target⟩ ∧
        ∀ r, actRecord s o = some r →
          actRecord u o = some { r with holder := s.act.outs[o].holder, run := .idle, lastEnd := some .target }) ∧
      (n ≠ x.count → ∀ (o : Fin 6) (l : PosLink), counterOf s o = some c → (s.plan.active.acts[o]).link = some l →
        s.act.outs[o].kind = .direction → x.referenced = true →
        (s.act.outs[o].run = .runA ∧ l.high ≤ n ∨ s.act.outs[o].run = .runB ∧ n ≤ l.low) →
        u.act.outs[o] = ⟨s.act.outs[o].holder, .idle, .none, none, .stopped, none, .stopped, some .limit⟩ ∧
        ∀ r, actRecord s o = some r →
          actRecord u o = some { r with holder := s.act.outs[o].holder, run := .idle, lastEnd := some .limit }) ∧
      (∀ o : Fin 6, counterOf s o ≠ some c → u.act.outs[o] = s.act.outs[o]) ∧
      Frame [.counters, .outs, .store, .handed] s u) ∧
    ∀ (c : Fin 2) (s : State), s.powered = true →
      let x := s.input.counters[c]
      ∃ u, exec (.phaseError c) s = .next (settle s (react Config.reactFuel u)) ∧
        u.input.counters[c] = ⟨x.count, false, !x.phaseA, !x.phaseB⟩ ∧
        (∀ k : Fin 2, k ≠ c → u.input.counters[k] = s.input.counters[k]) ∧
        (x.referenced = false → Frame [.counters] s u) ∧
        (x.referenced = true → ∀ o : Fin 6, counterOf s o = some c →
          (s.act.outs[o].kind = .target → running s o = true → targetMet s.act.outs[o] x.count = false →
            u.act.outs[o] = ⟨s.act.outs[o].holder, .idle, .none, none, .stopped, none, .stopped, some .interlock⟩ ∧
            ∀ r, actRecord s o = some r →
              actRecord u o = some { r with holder := s.act.outs[o].holder, run := .idle, lastEnd := some .interlock }) ∧
          ∀ (t : Fin 40) (r : ActRec), liveTag s (.actuator o) = some t → actRecord s o = some r → r.pos.isSome = true →
            t ∈ u.work.handed ∧ ∃ y, actRecord u o = some y ∧ y.pos = r.pos ∧ y.state = r.state ∧
              (running s o = false → y = r)) ∧
        Frame [.counters, .outs, .store, .handed] s u

/-- The guards of a run: the stall current starts and stops the stall timer, the run timer ends a run with TIMEOUT, the
stall timer with STALL and the record in FAULT, and the loss of the drive supply ends every run with SUPPLY (R161, R162,
R168). The model's choices: the expiry of a stopped timer and the current of an output that does not run do nothing (log
entry 1), and the drive supply's command tells of BAT_SUP while the coupling supply is present (log entry 6). -/
def Obligations.GuardsAndSupplyEndRuns : Prop :=
  (∀ (p : Bool) (s : State), s.powered = true →
    ∃ u, exec (.driveSupplyChange p) s = .next (settle s (react Config.reactFuel u)) ∧
      u.act.batteryDrive = p ∧ driveSupply u = (s.lines.cplPresent || p) ∧
      (driveSupply u = true → Frame [.driveSupply] s u) ∧
      (driveSupply u = false → ∀ o : Fin 6, u.act.outs[o] =
        if running s o then ⟨s.act.outs[o].holder, .idle, .none, none, .stopped, none, .stopped, some .supply⟩
        else s.act.outs[o]) ∧
      Frame [.driveSupply, .outs, .store, .handed] s u) ∧
    (∀ (o : Fin 6) (above : Bool) (s : State), s.powered = true →
      ∃ u, exec (.stallCurrentChange o above) s = .next (settle s (react Config.reactFuel u)) ∧
        (running s o = false → u = s) ∧
        (running s o = true →
          u.act.outs[o] = { s.act.outs[o] with stallTimer := if above then .running else .stopped }) ∧
        (∀ k : Fin 6, k ≠ o → u.act.outs[k] = s.act.outs[k]) ∧ Frame [.outs] s u) ∧
      (∀ (o : Fin 6) (s : State), s.powered = true →
        ∃ u, exec (.runTimerExpiry o) s = .next (settle s (react Config.reactFuel u)) ∧
          (running s o = false ∨ s.act.outs[o].runTimer = .stopped → u = s) ∧
          (running s o = true → s.act.outs[o].runTimer = .running →
            u.act.outs[o] = ⟨s.act.outs[o].holder, .idle, .none, none, .stopped, none, .stopped, some .timeout⟩) ∧
          (∀ k : Fin 6, k ≠ o → u.act.outs[k] = s.act.outs[k]) ∧ Frame [.outs, .store, .handed] s u) ∧
      ∀ (o : Fin 6) (s : State), s.powered = true →
        ∃ u, exec (.stallTimerExpiry o) s = .next (settle s (react Config.reactFuel u)) ∧
          (running s o = false ∨ s.act.outs[o].stallTimer = .stopped → u = s) ∧
          (running s o = true → s.act.outs[o].stallTimer = .running →
            u.act.outs[o] = ⟨s.act.outs[o].holder, .idle, .none, none, .stopped, none, .stopped, some .stall⟩ ∧
            ∀ r, actRecord s o = some r →
              actRecord u o =
                some { r with holder := s.act.outs[o].holder, run := .idle, lastEnd := some .stall, state := .fault }) ∧
          (∀ k : Fin 6, k ≠ o → u.act.outs[k] = s.act.outs[k]) ∧ Frame [.outs, .store, .handed] s u

/-! ## Frames on the lines -/

/-- The first byte opens the receive buffer and wakes QUIET on CHASSIS and SERVICE; a malformed frame, or one that began while
the part was sending on the line, only clears the buffer, and FRONT discards frames in QUIET and LOCAL (R62, R185). -/
def Obligations.FramesAreCollectedAndJudged : Prop :=
  (∀ (p : Port) (b : Byte) (s : State), s.powered = true →
    ∃ u, exec (.frameFirstByte p b) s = .next (settle s (react Config.reactFuel u)) ∧
      (line u p).rx = [b] ∧ (line u p).collided = (line s p).sending.isSome ∧
      (line u p).waiting = (line s p).waiting ∧ (line u p).sending = (line s p).sending ∧
      ((p = .chassis ∨ p = .service) → s.cc.state = .quiet →
        u.cc.state = .localAwake ∧ u.cc.motion = .parked ∧ u.cc.idleExpired = false) ∧
      ((p = .front ∨ p = .rear ∨ s.cc.state ≠ .quiet) → Frame [.masterFrames, .rearFrames] s u)) ∧
    ∀ (p : Port) (bytes : List Byte) (s : State), s.powered = true →
      (parseFrame p bytes = none ∨ (line s p).collided = true ∨ (p = .front ∧ frontDeaf s = true)) →
      ∃ u, exec (.frameReceived p bytes) s = .next (settle s (react Config.reactFuel u)) ∧
        (∀ q, line u q = if q = p then { line s p with rx := [], collided := false } else line s q) ∧
        Frame [.masterFrames, .rearFrames] s u

/-- A well-formed frame on a master's line is taken: what is no request, or no request for this unit, changes nothing more
than its arrival; on FRONT a request for a unit further back joins the downstream queue or is answered BUSY or UNREACHABLE; a
request for this unit is refused BUSY, BAD_ARG for its code, FORBIDDEN or BAD_ARG for its length in that order, or acts as the
request row that its code and body spell; a broadcast or PHASE on FRONT is also passed down (R181, R185, R187 to R189). Left
out are the frames from REAR (stated with the frames of the unit behind), and a REC_EDIT or PLAN_WRITE body that names a form
of neither row. That a row stands for its frame is the model's choice (log entry 7), and the bytes of the names in a body are
free values (log entries 8 and 9). -/
def Obligations.FrameActsAsTheRequestItSpells : Prop :=
  (∀ (m : Master) (bytes : List Byte) (f : RxFrame) (c : Instr) (s : State),
    parseFrame (masterPort m) bytes = some f → (line s (masterPort m)).collided = false → f.kind = .request →
    (f.dest = 0 ∨ f.dest = 15 ∨ f.dest = s.chain.own) →
    (m = .front → f.dest ≠ 15 ∧ f.code ≠ codePhase) →
    requestOf (headerOf m f) f.code f.payload = .request c →
    exec (.frameReceived (masterPort m) bytes) s = exec c s) ∧
    (∀ (c : Instr) (h : ReqHdr) (allowed : List Master) (s : State), requestParts c = some (h, allowed) →
      Taken h allowed s → exec c s = .next (settle s (react Config.reactFuel (runRequest h c (met h c s))))) ∧
    ∀ (m : Master) (bytes : List Byte) (f : RxFrame) (s : State), s.powered = true →
      parseFrame (masterPort m) bytes = some f → (line s (masterPort m)).collided = false →
      (m = .front → frontDeaf s = false) →
      let h := headerOf m f
      let w := heard m s
      let own : Prop := f.dest = 0 ∨ f.dest = 15 ∨ f.dest = s.chain.own
      let v := passDown h (.bytes bytes) (decide (f.dest = 15) || decide (f.code = codePhase)) w
      let t := if f.dest = 15 then v else setOutstanding m true v
      ∃ u, exec (.frameReceived (masterPort m) bytes) s = .next (settle s (react Config.reactFuel u)) ∧
        (f.kind ≠ .request → u = w) ∧
        (f.kind = .request → ¬ own →
          (m ≠ .front ∨ f.dest < s.chain.own ∨ 4 < f.dest → u = w) ∧
          (m = .front → s.chain.own < f.dest → f.dest ≤ 4 →
            (s.chain.rear ≠ .linked → Answered false h .unreachable .empty w u ∧ Frame [.masterFrames] w u) ∧
            (s.chain.rear = .linked → 4 ≤ s.chain.down.length →
              Answered false h .busy .empty w u ∧ Frame [.masterFrames] w u) ∧
            (s.chain.rear = .linked → s.chain.down.length < 4 →
              u.chain = { w.chain with down := w.chain.down ++ [.bytes bytes] } ∧ Frame [.forward] w u))) ∧
        (m = .front → f.dest = 15 ∨ f.code = codePhase → s.chain.rear = .linked → s.chain.down.length < 4 →
          v.chain.down = s.chain.down ++ [.bytes bytes]) ∧
        (f.kind = .request → own →
          (f.dest ≠ 15 → (station s m).outstanding = true →
            Answered false h .busy .empty v u ∧ Frame [.masterFrames] v u) ∧
          ((f.dest ≠ 15 → (station s m).outstanding = false) →
            (codeStations f.code = none → Answered false h .badArg .empty v u ∧ Frame [.masterFrames] v u) ∧
            ∀ allowed, codeStations f.code = some allowed →
              (m ∉ allowed → Answered false h .forbidden .empty v u ∧ Frame [.masterFrames] v u) ∧
              (m ∈ allowed →
                (requestOf h f.code f.payload = .badLength →
                  Answered false h .badArg .empty v u ∧ Frame [.masterFrames] v u) ∧
                (requestOf h f.code f.payload = .badArgument → Replied h .badArg .empty t u ∧ Frame [.masterFrames] t u) ∧
                ∀ c, requestOf h f.code f.payload = .request c → u = runRequest h c t)))

/-- A free line begins this unit's own frame before the head of its forward queue, and the end of a sending frees the
line, clears the mark of the request answered, or drops the frame forwarded (R183, R188, R190). That a start with nothing to
send, or on a line that sends or receives, does nothing is the model's choice (log entry 1), and that a sending is two
commands is read from the table (log entry 12). -/
def Obligations.LinesSendInTheirOrder : Prop :=
  (∀ (p : Port) (s : State), s.powered = true →
    ∃ u, exec (.frameSendStart p) s = .next (settle s (react Config.reactFuel u)) ∧
      ((line s p).sending ≠ none ∨ (line s p).rx ≠ [] → u = s) ∧
      ((line s p).sending = none → (line s p).rx = [] →
        (∀ f fs, (line s p).waiting = f :: fs →
          (line u p).sending = some (.own f) ∧ (line u p).waiting = fs) ∧
        ((line s p).waiting = [] →
          (forwardQueue s p = [] → u = s) ∧
          ∀ g gs, forwardQueue s p = g :: gs →
            (line u p).sending = some (.forward g) ∧ (line u p).waiting = [] ∧ forwardQueue u p = g :: gs)) ∧
      Frame [.masterFrames, .rearFrames] s u) ∧
    ∀ (p : Port) (s : State), s.powered = true →
      ∃ u, exec (.frameSendEnd p) s = .next (settle s (react Config.reactFuel u)) ∧
        (line u p).sending = none ∧ (line u p).waiting = (line s p).waiting ∧
        (∀ f, (line s p).sending = some (.own f) →
          (f.closes = true → station u f.station = { station s f.station with outstanding := false }) ∧
          (∀ m, (f.closes = false ∨ m ≠ f.station) → station u m = station s m) ∧
          Frame [.masterFrames, .rearFrames, .stations] s u) ∧
        (∀ g, (line s p).sending = some (.forward g) →
          forwardQueue u p = (forwardQueue s p).tail ∧ Frame [.masterFrames, .rearFrames, .forward] s u)

/-! ## Frames of the unit behind -/

/-- HELLO links a feeding or lost neighbour with UNIT_ASSIGN of the own number plus one, and the answer DONE closes the
assignment. SUMMARY and the other frames from REAR are passed up in LINKED and LOST, or set UP_OVERRUN where the queue is
full; an adjacent SUMMARY is the neighbour report. A frame given by its bytes acts as the row of its kind and code, and a
REQUEST or another code of kind CHAIN is discarded (R177, R182, R187). The model's choices: a row stands for its frame, and a
passed SUMMARY row waits as the command (log entry 7), the correlation number (log entry 18), the cap of the report (log entry
22) and the kept number of the assignment (log entry 48). -/
def Obligations.FramesFromRearLinkAndPassUp : Prop :=
  ((∀ (r : Report) (s : State), s.powered = true →
    ∃ u, exec (.hello r) s = .next (settle s (react Config.reactFuel u)) ∧
      (rearFeed s = true →
        u.chain.rear = .linked ∧ u.chain.silence = .running ∧ u.chain.assignOut = true ∧
        u.chain.report = some { r with unitsBehind := min 2 r.unitsBehind } ∧
        (∃ f, (line u .rear).waiting = (line s .rear).waiting ++ [f] ∧ f.code = codeUnitAssign ∧ f.src = s.chain.own ∧
          f.body = .number (s.chain.own + 1) ∧ f.corr = Config.freshCorr s.freshCount) ∧
        u.freshCount = s.freshCount + 1 ∧
        u.chain.assigned = s.chain.own + 1 ∧
        (liveTag s .unit ≠ none ∨ (s.chain.rear ≠ .linked ∧ s.store.queue = [] ∧ hasRoom s 1 = true) →
          unitRecord u =
            some ⟨s.chain.own + 1, r.coupling, r.quality, r.causes, min 2 r.unitsBehind, true⟩)) ∧
      (rearFeed s = false → u = frameJudged .rear s) ∧
      Frame [.rear, .rearFrames, .fresh, .store, .handed] s u) ∧
    ∀ (res : Result) (s : State), s.powered = true →
      ∃ u, exec (.unitAssignReply res) s = .next (settle s (react Config.reactFuel u)) ∧
        (s.chain.rear = .linked ∨ s.chain.rear = .lost →
          u.chain.assignOut = (if res = .done then false else s.chain.assignOut)) ∧
        (s.chain.rear = .linked → u.chain.silence = .running) ∧
        u.chain.rear = s.chain.rear ∧ (s.chain.rear ≠ .linked → s.chain.rear ≠ .lost → u = frameJudged .rear s) ∧
        Frame [.rear, .rearFrames] s u) ∧
    (∀ (bytes : List Byte) (f : RxFrame) (s : State), s.powered = true → parseFrame .rear bytes = some f →
      (line s .rear).collided = false →
      let w := rearHeard (frameJudged .rear s)
      let r := Config.reportOf f.payload
      ∃ u, exec (.frameReceived .rear bytes) s = .next (settle s (react Config.reactFuel u)) ∧
        (f.kind = .request ∨ (f.kind = .chain ∧ f.code ≠ codeHello ∧ f.code ≠ codeSummary) → u = w) ∧
        (f.kind = .chain → f.code = codeHello → exec (.frameReceived .rear bytes) s = exec (.hello r) s) ∧
        (f.kind = .chain → f.code = codeSummary →
          (s.chain.rear ≠ .linked → s.chain.rear ≠ .lost → u = w) ∧
          (s.chain.rear = .linked ∨ s.chain.rear = .lost →
            (s.chain.up.length < 4 → u.chain.up = s.chain.up ++ [.bytes bytes] ∧
              u.chain.upOverrun = s.chain.upOverrun) ∧
            (4 ≤ s.chain.up.length → u.chain.up = s.chain.up ∧ u.chain.upOverrun = true) ∧
            u.chain.report =
              if f.src = s.chain.own + 1 then some { r with unitsBehind := min 2 r.unitsBehind }
              else s.chain.report)) ∧
        (f.kind = .reply → f.dest = s.chain.own →
          (resultOf f.code = none → u = w) ∧
          ∀ res, resultOf f.code = some res → exec (.frameReceived .rear bytes) s = exec (.unitAssignReply res) s) ∧
        (f.kind = .notice ∨ (f.kind = .reply ∧ f.dest ≠ s.chain.own) →
          exec (.frameReceived .rear bytes) s = exec (.upstreamForward bytes) s)) ∧
    ∀ s : State, s.powered = true →
      let takes : Prop := s.chain.rear = .linked ∨ s.chain.rear = .lost
      (∀ (src : Nat) (r : Report),
        ∃ u, exec (.summary src r) s = .next (settle s (react Config.reactFuel u)) ∧
          (¬ takes → u = frameJudged .rear s) ∧
          (takes →
            (s.chain.up.length < 4 → u.chain.up = s.chain.up ++ [.command (.summary src r)] ∧
              u.chain.upOverrun = s.chain.upOverrun) ∧
            (4 ≤ s.chain.up.length → u.chain.up = s.chain.up ∧ u.chain.upOverrun = true) ∧
            u.chain.report =
              (if src = s.chain.own + 1 then some { r with unitsBehind := min 2 r.unitsBehind } else s.chain.report) ∧
            (src = s.chain.own + 1 → ∀ x, unitRecord s = some x →
              unitRecord u =
                some ⟨s.chain.assigned, r.coupling, r.quality, r.causes, min 2 r.unitsBehind,
                  decide (s.chain.rear = .linked)⟩) ∧
            (s.chain.rear = .linked → s.chain.assignOut = true →
              ∃ f, (line u .rear).waiting = (line s .rear).waiting ++ [f] ∧ f.code = codeUnitAssign ∧
                f.body = .number (s.chain.own + 1) ∧ u.chain.assigned = s.chain.own + 1)) ∧
          u.chain.rear = s.chain.rear ∧ Frame [.rear, .forward, .rearFrames, .fresh, .store, .handed] s u) ∧
      ∀ bs : List Byte,
        ∃ u, exec (.upstreamForward bs) s = .next (settle s (react Config.reactFuel u)) ∧
          (¬ takes → u = frameJudged .rear s) ∧
          (takes →
            (s.chain.up.length < 4 → u.chain.up = s.chain.up ++ [.bytes bs] ∧ u.chain.upOverrun = s.chain.upOverrun) ∧
            (4 ≤ s.chain.up.length → u.chain.up = s.chain.up ∧ u.chain.upOverrun = true)) ∧
          u.chain.rear = s.chain.rear ∧ Frame [.rear, .rearFrames, .forward] s u

/-! ## Expiries -/

/-- The silence of a master's port detaches it, removes its claims, ends its holds with SILENCE, and on FRONT in PROBING or
SERVING places the fallback claims; the other claimants keep theirs, but for the test claims of a hold that ends with motion
(R186, R120, R121, R125, R170, R49). That the expiry of a stopped timer does nothing is the model's choice (log entry 1). -/
def Obligations.PortSilenceEndsTheMastersLeases : Prop :=
  ∀ (m : Master) (s : State), s.powered = true →
    ∃ u, exec (.portSilenceExpiry m) s = .next (settle s (react Config.reactFuel u)) ∧
      ((station s m).attached = false ∨ (station s m).silence = .stopped → u = s) ∧
      ((station s m).attached = true → (station s m).silence = .running →
        station u m = ⟨false, .stopped, false⟩ ∧ (queueOf u m).pendingSent = false ∧
        (queueOf u m).entries = (queueOf s m).entries ∧
        (∀ k, k ≠ m → station u k = station s k) ∧
        (∀ f, claimAt u (asClaimant m) f = none) ∧
        (∀ o : Fin 6, u.act.outs[o].holder ≠ some m) ∧
        (∀ o : Fin 6, s.act.outs[o].holder = some m → running s o = true →
          u.act.outs[o].run = .idle ∧ u.act.outs[o].lastEnd = some .silence) ∧
        (m = .front →
          u.cc.motion = .unknown ∧
          (∀ f, claimAt u .chassis f = claimAt s .chassis f) ∧
          (∀ f, claimAt u .service f =
            if holdEffective s = true ∧ holdEffective u = false ∧ f ≤ 10 then none else claimAt s .service f) ∧
          (∀ f, f < 5 ∨ 10 < f → claimAt u .unit f = claimAt s .unit f) ∧
          (s.cc.state = .probing ∨ s.cc.state = .serving →
            u.arb.frontSilent = true ∧
            ∀ f : Nat, 5 ≤ f → f ≤ 10 → claimAt u .unit f = some ⟨.steady, .dflt⟩) ∧
          (s.cc.state ≠ .probing → s.cc.state ≠ .serving →
            u.arb.frontSilent = s.arb.frontSilent ∧ ∀ f, claimAt u .unit f = claimAt s .unit f)) ∧
        (m ≠ .front → u.cc = s.cc ∧ ∀ d f, d ≠ asClaimant m → claimAt u d f = claimAt s d f) ∧
        (m = .service → u.plan.staging = none) ∧
        Arbitrated u)

/-- The timers of the chain: REAR silence loses the neighbour, the hello timer gives up the feed, and the repeats send
HELLO and SUMMARY again; in SENSED the feed goes on at the first event that finds SERVING, a number 1 to 3 and the feed try
mark (R175, R179, R180). That an expiry with its timer stopped or in another REAR state does nothing is the model's choice (log
entry 1), and so is the place of the feed among the reactions (log entry 14). -/
def Obligations.ChainTimers : Prop :=
  ∀ s : State, s.powered = true →
    (∃ u, exec .rearSilenceExpiry s = .next (settle s (react Config.reactFuel u)) ∧
      (s.chain.rear = .linked ∧ s.chain.silence = .running →
        u.chain.rear = .lost ∧ u.chain.silence = .stopped ∧ u.cc.causes = { s.cc.causes with chainLost := true } ∧
        rearFeed u = true ∧ unitsBehind u = 0 ∧ u.chain.down = s.chain.down ∧
        ∀ r, unitRecord s = some r → unitRecord u = some { r with linked := false }) ∧
      (¬ (s.chain.rear = .linked ∧ s.chain.silence = .running) → u = s) ∧
      Frame [.rear, .causes, .store, .handed] s u) ∧
    (∃ u, exec .helloTimerExpiry s = .next (settle s (react Config.reactFuel u)) ∧
      (s.chain.rear = .feeding ∧ s.chain.helloTimer = .running →
        u.chain.rear = .sensed ∧ u.chain.feedTry = false ∧ rearFeed u = false ∧ u.chain.helloTimer = .stopped) ∧
      (¬ (s.chain.rear = .feeding ∧ s.chain.helloTimer = .running) → u = s) ∧
      Frame [.rear, .rearFrames, .forward] s u) ∧
    (∃ u, exec .helloRepeatExpiry s = .next (settle s (react Config.reactFuel u)) ∧
      (s.chain.helloRepeat = .running →
        ∃ f, (line u .front).waiting = (line s .front).waiting ++ [f] ∧ f.code = codeHello ∧ f.dest = 0 ∧
          f.src = s.chain.own ∧ f.body = .report (ownReport s)) ∧
      (s.chain.helloRepeat = .stopped → u = s) ∧ Frame [.masterFrames] s u) ∧
    (∃ u, exec .summaryRepeatExpiry s = .next (settle s (react Config.reactFuel u)) ∧
      (s.chain.summaryRepeat = .running →
        u.chain.summaryRepeat = .running ∧
        ∃ f, (line u .front).waiting = (line s .front).waiting ++ [f] ∧ f.code = codeSummary ∧ f.dest = 0 ∧
          f.src = s.chain.own ∧ f.body = .report (ownReport s)) ∧
      (s.chain.summaryRepeat = .stopped → u = s) ∧ Frame [.masterFrames] s u) ∧
    (nextReaction s = none →
      ¬ (s.chain.rear = .sensed ∧ s.cc.state = .serving ∧ 1 ≤ s.chain.own ∧ s.chain.own ≤ 3 ∧ s.chain.feedTry = true)) ∧
    (nextReaction s = some .feed →
      s.chain.rear = .sensed ∧ s.cc.state = .serving ∧ 1 ≤ s.chain.own ∧ s.chain.own ≤ 3 ∧ s.chain.feedTry = true) ∧
    let u := runReaction .feed s
    u.chain = { s.chain with rear := .feeding, helloTimer := .running } ∧ rearFeed u = true ∧ Frame [.rear] s u

/-- The timers of the coupling controller: the idle timer expires and LOCAL without a reason to stay awake goes QUIET, the
debounce ends in PROBING, with the active plan loaded and its effects, or waits for the commit, and the deadline ends PROBING
with TIMEOUT. The bring-up completes when its three sequencers have reached terminal count: the idents and causes, the cycles,
SERVING (R46, R47, R62, R63, R65, R67, R68, R70 to R73, R147, R155, R166). The model's choices: an expiry outside its state
or with the timer stopped does nothing (log entry 1), the sequencers stopped at QUIET give up their requests together (log
entry 19), the running mark is clear when the cycles are loaded (log entry 44), the demand condition and period of the loaded
programs (log entry 45), and the order in which a load acts on the runs (log entry 47). -/
def Obligations.CouplingTimers : Prop :=
  ∀ s : State, s.powered = true →
    (∃ u, exec .idleTimerExpiry s = .next (settle s (react Config.reactFuel u)) ∧
      u = { s with cc := { s.cc with idleExpired := true } } ∧
      (s.cc.state = .localAwake → noClaims s = true → noHolder s = true → s.lines.svcHold = false →
        (∀ n : Fin 4, s.probe.seqs[n].status = .idle) → s.probe.holder = none → s.cc.bringUp = false →
        ∃ t, exec .idleTimerExpiry s = .next t ∧ t.cc.state = .quiet ∧ t.cc.motion = .parked)) ∧
    (∃ u, exec .debounceComplete s = .next (settle s (react Config.reactFuel u)) ∧
      (¬ (s.cc.state = .mating ∧ s.cc.debounce = .running) → u = s) ∧
      (s.cc.state = .mating → s.cc.debounce = .running → s.plan.commit ≠ none →
        u.cc = { s.cc with debounce := .stopped, debounceDone := true } ∧ Frame [.coupling] s u) ∧
      (s.cc.state = .mating → s.cc.debounce = .running → s.plan.commit = none →
        u.cc.state = .probing ∧ u.cc.deadline = .running ∧ u.cc.bringUp = true ∧ u.cc.reprobe = false ∧
        u.cc.debounce = .stopped ∧ PlanTaken s u ∧
        (∀ f : Nat, 5 ≤ f → f ≤ 10 → claimAt u .unit f = some ⟨.steady, .dflt⟩) ∧
        (∀ n : Fin 4, n.val < 3 → u.probe.seqs[n].origin = .bringUp) ∧
        (s.chain.own = 0 → u.chain.helloRepeat = .running ∧
          ∃ f, (line u .front).waiting = (line s .front).waiting ++ [f] ∧ f.code = codeHello) ∧
        Arbitrated u)) ∧
    (let u := runReaction .quiet s;
      u.cc.state = .quiet ∧ u.cc.motion = .parked ∧
      (∀ n : Fin 4, u.probe.seqs[n].status = .idle) ∧
      (∀ n : Fin 4, s.probe.seqs[n].status ≠ .idle →
        u.probe.seqs[n] = Sequencer.idle ∧ ∀ q ∈ u.store.queue, q.requester ≠ .sq n) ∧
      ((∃ n : Fin 4, s.probe.seqs[n].status ≠ .idle ∧ s.probe.seqs[n].origin = .bringUp) → u.cc.bringUp = false) ∧
      ∀ i : Fin 10, u.input.inputs[i].snapshot =
        if (s.plan.active.sensors[i]).cls = .switch ∧ (s.plan.active.sensors[i]).wake = true then
          some s.input.inputs[i].level
        else none) ∧
    (let u := runReaction .complete s;
      u.cc.inventoryIdent = s.plan.active.ident ∧ u.cc.bringUp = false ∧ u.cc.reprobe = false ∧
      u.cc.causes.timeout = false ∧ u.cc.causes.store = (s.cc.causes.store && s.cc.storeTrouble) ∧
      (s.cc.state = .probing → u.cc.state = .serving ∧ u.cc.deadline = .stopped) ∧
      (s.cc.state ≠ .probing → u.cc.state = s.cc.state) ∧
      (boundChannels s ≠ [] → u.probe.seqs[0].program =
        some ⟨.lamp, boundChannels s, .verify, .cycle, .parked, 10, none⟩ ∧ u.probe.seqs[0].origin = .cycle) ∧
      (boundChannels s = [] → u.probe.seqs[0] = Sequencer.idle) ∧
      (u.probe.seqs[1].program = some ⟨.sensor, [0, 1, 2, 3, 4, 5, 6, 7, 8, 9], .measure, .cycle, .parked, 1, none⟩ ∧
        u.probe.seqs[1].origin = .cycle) ∧
      u.probe.seqs[2] = Sequencer.idle ∧
      (s.cc.reprobe = true → u.chain.feedTry = true) ∧ (s.cc.reprobe = false → u.chain.feedTry = s.chain.feedTry)) ∧
    ∃ u, exec .bringUpDeadlineExpiry s = .next (settle s (react Config.reactFuel u)) ∧
      (¬ (s.cc.state = .probing ∧ s.cc.deadline = .running) → u = s) ∧
      (s.cc.state = .probing → s.cc.deadline = .running →
        u.cc.state = .serving ∧ u.cc.deadline = .stopped ∧
        u.cc.causes = { s.cc.causes with timeout := true, store := s.cc.causes.store || !s.store.queue.isEmpty } ∧
        u.cc.storeTrouble = (s.cc.storeTrouble || !s.store.queue.isEmpty) ∧ u.cc.bringUp = s.cc.bringUp ∧
        Frame [.state, .coupling, .causes, .claims, .resolution, .drive, .rearFrames, .outs, .store, .handed] s u)

/-- The end of the parting hold tears down FRONT's part of the coupling and leaves LOCAL with the FRONT queue empty (R76,
R36, R153, R186). That the expiry outside PARTING or with the timer stopped does nothing is the model's choice (log
entry 1). -/
def Obligations.PartingHoldExpiryTearsDown : Prop :=
  ∀ s : State, s.powered = true →
    (¬ (s.cc.state = .parting ∧ s.cc.partingHold = .running) → exec .partingHoldExpiry s = .next s) ∧
    (s.cc.state = .parting → s.cc.partingHold = .running →
      ∃ u, exec .partingHoldExpiry s = .next (resetFrontQueue (settle s (react Config.reactFuel u))) ∧
        u.cc.state = .localAwake ∧ u.cc.motion = .parked ∧ u.cc.origin = .none ∧ u.cc.cycleRestore = false ∧
        u.cc.partingHold = .stopped ∧ u.cc.idleExpired = false ∧ u.chain.own = 0 ∧ u.arb.frontSilent = false ∧
        (∀ f, claimAt u .front f = none ∧ claimAt u .unit f = none ∧ claimAt u .chassis f = claimAt s .chassis f) ∧
        (∀ o : Fin 6, u.act.outs[o].holder ≠ some .front) ∧
        (∀ o : Fin 6, s.act.outs[o].holder = some .front → running s o = true →
          u.act.outs[o].run = .idle ∧ u.act.outs[o].lastEnd = some .parting) ∧
        (∀ i r, sensorRecord u i = some r → r.state = .stale) ∧
        (∀ n : Fin 4, isLampSeq s.probe.seqs[n] = true → u.probe.seqs[n] = Sequencer.idle) ∧
        station u .front = ⟨false, .stopped, false⟩ ∧ Arbitrated u ∧
        queueOf (resetFrontQueue (settle s (react Config.reactFuel u))) .front =
          ⟨[], ⟨true, true, true, true, true⟩, false, false⟩)

/-! ## Sequencer steps -/

/-- The cycle timer takes a sequencer back to its first subject. The end of a dark CLASSIFY, a CHECK or a resistive
MEASURE applies its result to the lamp block and the store, and the sequencer then ends its step; a dark VERIFY that
matches applies nothing, and one that does not inserts a CLASSIFY. A result that releases, reshapes at bring-up, or pends
for room is taken as its rule says. The reactions of the sequencers, the source and the gates run until none is left (R8,
R9, R12, R87, R88, R90, R93 to R98, R139, R171). The model's choices: a stopped cycle timer and a step end without a
holder do nothing (log entry 1), the order of the reactions (log entry 14), the band of NONE and SHORT (log entry 15), the
shape a request asks for (log entry 17), and a resistive MEASURE ends with its reading although a load made its input SWITCH
(log entry 54). -/
def Obligations.SequencersStepAndApplyResults : Prop :=
  (∀ (n : Fin 4) (s : State), s.powered = true →
    ∃ u, exec (.cycleTimerExpiry n) s = .next (settle s (react Config.reactFuel u)) ∧
      (s.probe.seqs[n].program = none ∨ s.probe.seqs[n].cycleTimer = .stopped → u = s) ∧
      (∀ p, s.probe.seqs[n].program = some p → s.probe.seqs[n].cycleTimer = .running →
        let q := { s.probe.seqs[n] with
          cycleTimer := .stopped, tc := false, index := p.list.head?, remaining := p.list.length, status := .stepping }
        u.probe.seqs[n].program = some p ∧ u.probe.seqs[n].origin = s.probe.seqs[n].origin ∧
        (howToTake s q false = .source → u.probe.seqs[n] = { q with status := .waitSource }) ∧
        (howToTake s q false = .lit → u.probe.seqs[n] = { q with status := .waitLit }) ∧
        (howToTake s q false = .pause → u.probe.seqs[n] = { q with status := .pausedDemand }))) ∧
    (∀ s : State, s.powered = true →
      (s.probe.holder = none →
        (∀ cls band, exec (.darkClassifyEnd cls band) s = .next (settle s (react Config.reactFuel s))) ∧
        (∀ cls, exec (.darkVerifyEnd cls) s = .next (settle s (react Config.reactFuel s))) ∧
        (∀ r, exec (.checkEnd r) s = .next (settle s (react Config.reactFuel s))) ∧
        ∀ r, exec (.resistiveMeasureEnd r) s = .next (settle s (react Config.reactFuel s))) ∧
      ∀ n : Fin 4, s.probe.holder = some n →
        (∀ (cls : LoadClass) (band : Nat) (ch : Fin 24), lampOf s.probe.seqs[n] = some ch →
          kindOf s.probe.seqs[n] = some .classify → (cls ≠ .noLoad ∨ channelBound s.plan.active ch = true) →
          (liveTag s (.lamp ch) ≠ none ∨ (s.store.queue = [] ∧ hasRoom s 1 = true)) →
          ∃ v, exec (.darkClassifyEnd cls band) s = .next (settle s (react Config.reactFuel (finishStep n v))) ∧
            v.lamp.channels[ch].fault =
              (if cls = .short then (if FaultState.latched s.lamp.channels[ch].fault then s.lamp.channels[ch].fault
                else .short) else .normal) ∧
            (∃ r, lampRecord v ch = some r ∧ r.loadClass = cls ∧ r.last = bandOf cls band ∧
              (cls ≠ .short → r.expected = r.last) ∧ r.state = lampStateOf v.lamp.channels[ch].fault cls) ∧
            v.probe = s.probe ∧ Arbitrated v) ∧
        (∀ (cls : LoadClass) (band : Nat) (ch : Fin 24), lampOf s.probe.seqs[n] = some ch →
          kindOf s.probe.seqs[n] = some .classify →
          exec (.darkClassifyEnd cls band) s =
            .next (settle s (react Config.reactFuel (endStep n (.lamp ch cls (bandOf cls band)) s)))) ∧
        (∀ (r : CheckResult) (o : Fin 6), outputOf s.probe.seqs[n] = some o →
          exec (.checkEnd r) s = .next (settle s (react Config.reactFuel (endStep n (.actuator o r) s)))) ∧
        (∀ (reading : Option Nat) (i : Fin 10), inputOf s.probe.seqs[n] = some i →
          let res : SensorResult :=
            match reading with
            | none => .opened
            | some raw => if raw < 10 then .short raw else .valid raw
          exec (.resistiveMeasureEnd reading) s =
            .next (settle s (react Config.reactFuel (endStep n (.sensor i res) s)))) ∧
        (∀ (cls : LoadClass) (ch : Fin 24), lampOf s.probe.seqs[n] = some ch → kindOf s.probe.seqs[n] = some .verify →
          ((∃ r, lampRecord s ch = some r ∧ r.loadClass = cls) →
            exec (.darkVerifyEnd cls) s = .next (settle s (react Config.reactFuel (finishStep n s)))) ∧
          ((∀ r, lampRecord s ch = some r → r.loadClass ≠ cls) →
            ∃ u, exec (.darkVerifyEnd cls) s = .next (settle s (react Config.reactFuel u)) ∧
              u.probe.seqs[n].inserted = true ∧ u.probe.seqs[n].index = s.probe.seqs[n].index ∧
              u.probe.holder = none ∧ Frame [.seqs, .source] s u)) ∧
        (∀ (r : CheckResult) (o : Fin 6), outputOf s.probe.seqs[n] = some o →
          (r ≠ .noLoad ∨ (s.plan.active.acts[o]).fn ≠ none) →
          ((∃ x, actRecord s o = some x ∧
              (s.cc.bringUp = false ∨ x.pos.isSome = (s.plan.active.acts[o]).link.isSome)) ∨
            (actRecord s o = none ∧ s.store.queue = [] ∧
              hasRoom s (if (s.plan.active.acts[o]).link.isSome then 3 else 2) = true)) →
          ∃ v, exec (.checkEnd r) s = .next (settle s (react Config.reactFuel (finishStep n v))) ∧
            (∃ x, actRecord v o = some x ∧ x.state = checkState r ∧ x.cls = (s.plan.active.acts[o]).cls ∧
              x.fn = (s.plan.active.acts[o]).fn ∧ x.interlocks = (s.plan.active.acts[o]).interlocks ∧
              x.runLimit = (s.plan.active.acts[o]).runLimit ∧
              (s.cc.bringUp = true ∨ actRecord s o = none →
                x.pos = (s.plan.active.acts[o]).link.map fun l => ⟨l.counter, l.low, l.high⟩)) ∧
            v.probe = s.probe ∧ Frame [.store, .handed] s v) ∧
        ∀ (reading : Option Nat) (i : Fin 10), inputOf s.probe.seqs[n] = some i →
          (s.plan.active.sensors[i]).cls ≠ .unused →
          ((∃ x, sensorRecord s i = some x ∧
              (s.cc.bringUp = false ∨ x.calib.isSome = (s.plan.active.sensors[i]).calib.isSome)) ∨
            (sensorRecord s i = none ∧ s.store.queue = [] ∧
              hasRoom s (if (s.plan.active.sensors[i]).calib.isSome then 2 else 1) = true)) →
          ∃ v, exec (.resistiveMeasureEnd reading) s = .next (settle s (react Config.reactFuel (finishStep n v))) ∧
            (∃ x, sensorRecord v i = some x ∧
              (reading = none → x.state = .opened) ∧
              (∀ raw, reading = some raw → raw < 10 → x.state = .short ∧ x.raw = raw) ∧
              (∀ raw, reading = some raw → 10 ≤ raw →
                x.state = .valid ∧ x.raw = raw ∧ x.value = sensorValue x.calib raw ∧
                x.band = sensorBand x.calib x.value) ∧
              x.fn = (s.plan.active.sensors[i]).fn ∧
              (s.cc.bringUp = true ∨ sensorRecord s i = none → x.calib = (s.plan.active.sensors[i]).calib)) ∧
            v.probe = s.probe) ∧
    (∀ (s : State) (ch : Fin 24) (cls : LoadClass) (band : Nat) (i : Fin 10) (x : SensorResult) (o : Fin 6)
      (y : CheckResult),
      (resultReleases s (.lamp ch cls band) = true ↔ cls = .noLoad ∧ channelBound s.plan.active ch = false) ∧
      (resultReleases s (.sensor i x) = true ↔ (s.plan.active.sensors[i]).cls = .unused ∨ x = .unused) ∧
      (resultReleases s (.actuator o y) = true ↔ (s.plan.active.acts[o]).fn = none ∧ y = .noLoad)) ∧
    (∀ (n : Fin 4) (res : StepResult) (s : State),
      let want : Nat := entryCells s res.subject
      let pends (replaces : Option (Fin 40)) : Prop :=
        let u := endStep n res s
        u.probe.seqs[n] = { s.probe.seqs[n] with status := .waitStore, held := some res } ∧
        u.probe.holder = (if s.probe.holder = some n then none else s.probe.holder) ∧
        (∀ k : Fin 4, k ≠ n → u.probe.seqs[k] = s.probe.seqs[k]) ∧
        u.store.queue = s.store.queue ++ [⟨.sq n, res.subject, want, replaces⟩] ∧
        u.store.records = s.store.records
      (resultReleases s res = true → s.store.queue = [] →
        ∃ v, endStep n res s = finishStep n v ∧ v.probe = s.probe ∧
          (∀ t, liveTag s res.subject = some t → v.store.records[t] = none) ∧
          (liveTag s res.subject = none → v.store = s.store)) ∧
      (resultReleases s res = false → liveTag s res.subject = none →
        (s.store.queue ≠ [] ∨ hasRoom s want = false) → pends none) ∧
      (resultReleases s res = false → s.cc.bringUp = true → ∀ t r, liveTag s res.subject = some t →
        s.store.records[t] = some r → r.content.cells ≠ want →
        ((s.store.queue ≠ [] ∨ hasRoom s want = false) → pends (some t)) ∧
        (s.store.queue = [] → hasRoom s want = true →
          ∃ v k, endStep n res s = finishStep n v ∧ v.probe = s.probe ∧ lowestFree s.store = some k ∧
            v.store.records[t] = none ∧
            v.store.records[k] = some ⟨r.gen + 1, resultContent s res want (some r.content)⟩))) ∧
    (∀ (n : Fin 4) (p : Program) (s : State), s.probe.seqs[n].program = some p →
      let q := s.probe.seqs[n]
      let q' := { q with
        remaining := q.remaining - 1, inserted := false, index := p.list[p.list.length - (q.remaining - 1)]? }
      let u := finishStep n s
      (q.remaining ≤ 1 →
        u.probe.seqs[n] =
          { q with
            index := none, remaining := 0, tc := true, inserted := false,
            status := if p.mode = .cycle then .waitCycle else .done,
            cycleTimer := if p.mode = .cycle then .running else q.cycleTimer } ∧
        u.probe.holder ≠ some n ∧ Frame [.seqs, .source] s u) ∧
      (1 < q.remaining →
        (howToTake s q' false = .source → u.probe.seqs[n] = { q' with status := .waitSource } ∧
          u.probe.holder ≠ some n ∧ Frame [.seqs, .source] s u) ∧
        (howToTake s q' false = .lit → u.probe.seqs[n] = { q' with status := .waitLit } ∧
          u.probe.holder ≠ some n ∧ Frame [.seqs, .source] s u) ∧
        (howToTake s q' false = .pause → u.probe.seqs[n] = { q' with status := .pausedDemand } ∧
          u.probe.holder ≠ some n ∧ Frame [.seqs, .source] s u))) ∧
    ∀ s : State,
      (∀ k, (nextReaction s = none → react k s = s) ∧
        ∀ r, nextReaction s = some r → react (k + 1) s = react k (watched s (runReaction r s))) ∧
      (nextReaction s = none →
        (∀ n : Fin 4, s.probe.seqs[n].status = .waitStore → s.probe.seqs[n].held ≠ none) ∧
        (∀ (n : Fin 4) (ch : Fin 24), lampOf s.probe.seqs[n] = some ch →
          (s.probe.seqs[n].status = .waitLit → s.lamp.channels[ch].driven = true) ∧
          (s.probe.seqs[n].status = .waitSource ∨ s.probe.holder = some n → s.lamp.channels[ch].driven = false)) ∧
        (∀ (n : Fin 4) (o : Fin 6), outputOf s.probe.seqs[n] = some o → s.probe.holder = some n →
          running s o = false) ∧
        (∀ (n : Fin 4) (p : Program), s.probe.seqs[n].program = some p →
          (s.probe.seqs[n].status = .waitSource → s.probe.seqs[n].mask = false ∧
            (p.mode = .demand → demandHolds s p.demand = true)) ∧
          (s.probe.seqs[n].status = .pausedDemand → s.probe.seqs[n].mask = true ∨
            (p.mode = .demand ∧ demandHolds s p.demand = false) ∨
            (p.mode = .step ∧ s.probe.seqs[n].inserted = false))) ∧
        (s.probe.holder = none → ∀ n : Fin 4, s.probe.seqs[n].status ≠ .waitSource) ∧
        bringUpComplete s = false ∧ (s.cc.state = .localAwake → localConditions s = true)) ∧
      ∀ n : Fin 4,
        let q := s.probe.seqs[n]
        (nextReaction s = some (.grant n) →
          s.probe.holder = none ∧ q.status = .waitSource ∧
          (∀ k : Fin 4, s.probe.seqs[k].status = .waitSource →
            if s.probe.mode = .fixed then n ≤ k else n - (s.probe.last + 1) ≤ k - (s.probe.last + 1))) ∧
        (let u := runReaction (.grant n) s;
          u.probe = { s.probe with
            holder := some n, last := n, seqs := s.probe.seqs.set n { q with status := .stepping } } ∧
          Frame [.seqs, .source] s u) ∧
        (let u := runReaction (.gateCloses n) s;
          u.probe = { s.probe with seqs := s.probe.seqs.set n { q with status := .pausedDemand } } ∧
          Frame [.seqs] s u) ∧
        (let u := runReaction (.convert n) s;
          u.probe = { s.probe with
            holder := (if s.probe.holder = some n then none else s.probe.holder),
            seqs := s.probe.seqs.set n { q with status := .waitLit } } ∧ Frame [.seqs, .source] s u) ∧
        (runReaction (.storeDone n) s = finishStep n s ∧ runReaction (.skipCheck n) s = finishStep n s) ∧
        ((howToTake s q true = .source → (runReaction (.relit n) s).probe =
            { s.probe with seqs := s.probe.seqs.set n { q with status := .waitSource } }) ∧
          (howToTake s q true = .lit → (runReaction (.relit n) s).probe =
            { s.probe with seqs := s.probe.seqs.set n { q with status := .waitLit } }) ∧
          (howToTake s q true = .pause → (runReaction (.relit n) s).probe =
            { s.probe with seqs := s.probe.seqs.set n { q with status := .pausedDemand } })) ∧
        (howToTake s q false = .source → (runReaction (.gateOpens n) s).probe =
          { s.probe with seqs := s.probe.seqs.set n { q with status := .waitSource } }) ∧
        (howToTake s q false = .lit → (runReaction (.gateOpens n) s).probe =
          { s.probe with seqs := s.probe.seqs.set n { q with status := .waitLit } })
end

