-- ==== Sys2Proof/Laws/State.lean ====
section
/-! SUPPORT. One lemma for each field of each update of the state. -/

namespace Sys2Proof.Machine

/-! ## setSeq -/

@[simp] theorem setSeq_powered (n : Fin 4) (q : Sequencer) (s : State) : (setSeq n q s).powered = s.powered := rfl
@[simp] theorem setSeq_lines (n : Fin 4) (q : Sequencer) (s : State) : (setSeq n q s).lines = s.lines := rfl
@[simp] theorem setSeq_cc (n : Fin 4) (q : Sequencer) (s : State) : (setSeq n q s).cc = s.cc := rfl
@[simp] theorem setSeq_store (n : Fin 4) (q : Sequencer) (s : State) : (setSeq n q s).store = s.store := rfl
@[simp] theorem setSeq_notice (n : Fin 4) (q : Sequencer) (s : State) : (setSeq n q s).notice = s.notice := rfl
@[simp] theorem setSeq_plan (n : Fin 4) (q : Sequencer) (s : State) : (setSeq n q s).plan = s.plan := rfl
@[simp] theorem setSeq_arb (n : Fin 4) (q : Sequencer) (s : State) : (setSeq n q s).arb = s.arb := rfl
@[simp] theorem setSeq_lamp (n : Fin 4) (q : Sequencer) (s : State) : (setSeq n q s).lamp = s.lamp := rfl
@[simp] theorem setSeq_input (n : Fin 4) (q : Sequencer) (s : State) : (setSeq n q s).input = s.input := rfl
@[simp] theorem setSeq_act (n : Fin 4) (q : Sequencer) (s : State) : (setSeq n q s).act = s.act := rfl
@[simp] theorem setSeq_chain (n : Fin 4) (q : Sequencer) (s : State) : (setSeq n q s).chain = s.chain := rfl
@[simp] theorem setSeq_port (n : Fin 4) (q : Sequencer) (s : State) : (setSeq n q s).port = s.port := rfl
@[simp] theorem setSeq_freshCount (n : Fin 4) (q : Sequencer) (s : State) : (setSeq n q s).freshCount = s.freshCount := rfl
@[simp] theorem setSeq_work (n : Fin 4) (q : Sequencer) (s : State) : (setSeq n q s).work = s.work := rfl
@[simp] theorem setSeq_pending (n : Fin 4) (q : Sequencer) (s : State) : (setSeq n q s).pending = s.pending := rfl
@[simp] theorem setSeq_probe_seqs (n : Fin 4) (q : Sequencer) (s : State) : (setSeq n q s).probe.seqs = s.probe.seqs.set n q := rfl
@[simp] theorem setSeq_probe_holder (n : Fin 4) (q : Sequencer) (s : State) : (setSeq n q s).probe.holder = s.probe.holder := rfl
@[simp] theorem setSeq_probe_mode (n : Fin 4) (q : Sequencer) (s : State) : (setSeq n q s).probe.mode = s.probe.mode := rfl
@[simp] theorem setSeq_probe_last (n : Fin 4) (q : Sequencer) (s : State) : (setSeq n q s).probe.last = s.probe.last := rfl

/-! ## setInput -/

@[simp] theorem setInput_powered (i : Fin 10) (x : Input) (s : State) : (setInput i x s).powered = s.powered := rfl
@[simp] theorem setInput_lines (i : Fin 10) (x : Input) (s : State) : (setInput i x s).lines = s.lines := rfl
@[simp] theorem setInput_cc (i : Fin 10) (x : Input) (s : State) : (setInput i x s).cc = s.cc := rfl
@[simp] theorem setInput_store (i : Fin 10) (x : Input) (s : State) : (setInput i x s).store = s.store := rfl
@[simp] theorem setInput_notice (i : Fin 10) (x : Input) (s : State) : (setInput i x s).notice = s.notice := rfl
@[simp] theorem setInput_plan (i : Fin 10) (x : Input) (s : State) : (setInput i x s).plan = s.plan := rfl
@[simp] theorem setInput_arb (i : Fin 10) (x : Input) (s : State) : (setInput i x s).arb = s.arb := rfl
@[simp] theorem setInput_lamp (i : Fin 10) (x : Input) (s : State) : (setInput i x s).lamp = s.lamp := rfl
@[simp] theorem setInput_probe (i : Fin 10) (x : Input) (s : State) : (setInput i x s).probe = s.probe := rfl
@[simp] theorem setInput_act (i : Fin 10) (x : Input) (s : State) : (setInput i x s).act = s.act := rfl
@[simp] theorem setInput_chain (i : Fin 10) (x : Input) (s : State) : (setInput i x s).chain = s.chain := rfl
@[simp] theorem setInput_port (i : Fin 10) (x : Input) (s : State) : (setInput i x s).port = s.port := rfl
@[simp] theorem setInput_freshCount (i : Fin 10) (x : Input) (s : State) : (setInput i x s).freshCount = s.freshCount := rfl
@[simp] theorem setInput_work (i : Fin 10) (x : Input) (s : State) : (setInput i x s).work = s.work := rfl
@[simp] theorem setInput_pending (i : Fin 10) (x : Input) (s : State) : (setInput i x s).pending = s.pending := rfl
@[simp] theorem setInput_input_inputs (i : Fin 10) (x : Input) (s : State) : (setInput i x s).input.inputs = s.input.inputs.set i x := rfl
@[simp] theorem setInput_input_counters (i : Fin 10) (x : Input) (s : State) : (setInput i x s).input.counters = s.input.counters := rfl
@[simp] theorem setInput_input_sense (i : Fin 10) (x : Input) (s : State) : (setInput i x s).input.sense = s.input.sense := rfl

/-! ## setCounter -/

@[simp] theorem setCounter_powered (c : Fin 2) (x : Counter) (s : State) : (setCounter c x s).powered = s.powered := rfl
@[simp] theorem setCounter_lines (c : Fin 2) (x : Counter) (s : State) : (setCounter c x s).lines = s.lines := rfl
@[simp] theorem setCounter_cc (c : Fin 2) (x : Counter) (s : State) : (setCounter c x s).cc = s.cc := rfl
@[simp] theorem setCounter_store (c : Fin 2) (x : Counter) (s : State) : (setCounter c x s).store = s.store := rfl
@[simp] theorem setCounter_notice (c : Fin 2) (x : Counter) (s : State) : (setCounter c x s).notice = s.notice := rfl
@[simp] theorem setCounter_plan (c : Fin 2) (x : Counter) (s : State) : (setCounter c x s).plan = s.plan := rfl
@[simp] theorem setCounter_arb (c : Fin 2) (x : Counter) (s : State) : (setCounter c x s).arb = s.arb := rfl
@[simp] theorem setCounter_lamp (c : Fin 2) (x : Counter) (s : State) : (setCounter c x s).lamp = s.lamp := rfl
@[simp] theorem setCounter_probe (c : Fin 2) (x : Counter) (s : State) : (setCounter c x s).probe = s.probe := rfl
@[simp] theorem setCounter_act (c : Fin 2) (x : Counter) (s : State) : (setCounter c x s).act = s.act := rfl
@[simp] theorem setCounter_chain (c : Fin 2) (x : Counter) (s : State) : (setCounter c x s).chain = s.chain := rfl
@[simp] theorem setCounter_port (c : Fin 2) (x : Counter) (s : State) : (setCounter c x s).port = s.port := rfl
@[simp] theorem setCounter_freshCount (c : Fin 2) (x : Counter) (s : State) : (setCounter c x s).freshCount = s.freshCount := rfl
@[simp] theorem setCounter_work (c : Fin 2) (x : Counter) (s : State) : (setCounter c x s).work = s.work := rfl
@[simp] theorem setCounter_pending (c : Fin 2) (x : Counter) (s : State) : (setCounter c x s).pending = s.pending := rfl
@[simp] theorem setCounter_input_inputs (c : Fin 2) (x : Counter) (s : State) : (setCounter c x s).input.inputs = s.input.inputs := rfl
@[simp] theorem setCounter_input_counters (c : Fin 2) (x : Counter) (s : State) : (setCounter c x s).input.counters = s.input.counters.set c x := rfl
@[simp] theorem setCounter_input_sense (c : Fin 2) (x : Counter) (s : State) : (setCounter c x s).input.sense = s.input.sense := rfl

/-! ## setOut -/

@[simp] theorem setOut_powered (o : Fin 6) (x : Actuator) (s : State) : (setOut o x s).powered = s.powered := rfl
@[simp] theorem setOut_lines (o : Fin 6) (x : Actuator) (s : State) : (setOut o x s).lines = s.lines := rfl
@[simp] theorem setOut_cc (o : Fin 6) (x : Actuator) (s : State) : (setOut o x s).cc = s.cc := rfl
@[simp] theorem setOut_store (o : Fin 6) (x : Actuator) (s : State) : (setOut o x s).store = s.store := rfl
@[simp] theorem setOut_notice (o : Fin 6) (x : Actuator) (s : State) : (setOut o x s).notice = s.notice := rfl
@[simp] theorem setOut_plan (o : Fin 6) (x : Actuator) (s : State) : (setOut o x s).plan = s.plan := rfl
@[simp] theorem setOut_arb (o : Fin 6) (x : Actuator) (s : State) : (setOut o x s).arb = s.arb := rfl
@[simp] theorem setOut_lamp (o : Fin 6) (x : Actuator) (s : State) : (setOut o x s).lamp = s.lamp := rfl
@[simp] theorem setOut_probe (o : Fin 6) (x : Actuator) (s : State) : (setOut o x s).probe = s.probe := rfl
@[simp] theorem setOut_input (o : Fin 6) (x : Actuator) (s : State) : (setOut o x s).input = s.input := rfl
@[simp] theorem setOut_chain (o : Fin 6) (x : Actuator) (s : State) : (setOut o x s).chain = s.chain := rfl
@[simp] theorem setOut_port (o : Fin 6) (x : Actuator) (s : State) : (setOut o x s).port = s.port := rfl
@[simp] theorem setOut_freshCount (o : Fin 6) (x : Actuator) (s : State) : (setOut o x s).freshCount = s.freshCount := rfl
@[simp] theorem setOut_work (o : Fin 6) (x : Actuator) (s : State) : (setOut o x s).work = s.work := rfl
@[simp] theorem setOut_pending (o : Fin 6) (x : Actuator) (s : State) : (setOut o x s).pending = s.pending := rfl
@[simp] theorem setOut_act_outs (o : Fin 6) (x : Actuator) (s : State) : (setOut o x s).act.outs = s.act.outs.set o x := rfl
@[simp] theorem setOut_act_batteryDrive (o : Fin 6) (x : Actuator) (s : State) : (setOut o x s).act.batteryDrive = s.act.batteryDrive := rfl

/-! ## setChannel -/

@[simp] theorem setChannel_powered (ch : Fin 24) (x : LampChannel) (s : State) : (setChannel ch x s).powered = s.powered := rfl
@[simp] theorem setChannel_lines (ch : Fin 24) (x : LampChannel) (s : State) : (setChannel ch x s).lines = s.lines := rfl
@[simp] theorem setChannel_cc (ch : Fin 24) (x : LampChannel) (s : State) : (setChannel ch x s).cc = s.cc := rfl
@[simp] theorem setChannel_store (ch : Fin 24) (x : LampChannel) (s : State) : (setChannel ch x s).store = s.store := rfl
@[simp] theorem setChannel_notice (ch : Fin 24) (x : LampChannel) (s : State) : (setChannel ch x s).notice = s.notice := rfl
@[simp] theorem setChannel_plan (ch : Fin 24) (x : LampChannel) (s : State) : (setChannel ch x s).plan = s.plan := rfl
@[simp] theorem setChannel_arb (ch : Fin 24) (x : LampChannel) (s : State) : (setChannel ch x s).arb = s.arb := rfl
@[simp] theorem setChannel_probe (ch : Fin 24) (x : LampChannel) (s : State) : (setChannel ch x s).probe = s.probe := rfl
@[simp] theorem setChannel_input (ch : Fin 24) (x : LampChannel) (s : State) : (setChannel ch x s).input = s.input := rfl
@[simp] theorem setChannel_act (ch : Fin 24) (x : LampChannel) (s : State) : (setChannel ch x s).act = s.act := rfl
@[simp] theorem setChannel_chain (ch : Fin 24) (x : LampChannel) (s : State) : (setChannel ch x s).chain = s.chain := rfl
@[simp] theorem setChannel_port (ch : Fin 24) (x : LampChannel) (s : State) : (setChannel ch x s).port = s.port := rfl
@[simp] theorem setChannel_freshCount (ch : Fin 24) (x : LampChannel) (s : State) : (setChannel ch x s).freshCount = s.freshCount := rfl
@[simp] theorem setChannel_work (ch : Fin 24) (x : LampChannel) (s : State) : (setChannel ch x s).work = s.work := rfl
@[simp] theorem setChannel_pending (ch : Fin 24) (x : LampChannel) (s : State) : (setChannel ch x s).pending = s.pending := rfl
@[simp] theorem setChannel_lamp_channels (ch : Fin 24) (x : LampChannel) (s : State) : (setChannel ch x s).lamp.channels = s.lamp.channels.set ch x := rfl
@[simp] theorem setChannel_lamp_timebase (ch : Fin 24) (x : LampChannel) (s : State) : (setChannel ch x s).lamp.timebase = s.lamp.timebase := rfl
@[simp] theorem setChannel_lamp_phaseTimer (ch : Fin 24) (x : LampChannel) (s : State) : (setChannel ch x s).lamp.phaseTimer = s.lamp.phaseTimer := rfl
@[simp] theorem setChannel_lamp_supplyLow (ch : Fin 24) (x : LampChannel) (s : State) : (setChannel ch x s).lamp.supplyLow = s.lamp.supplyLow := rfl
@[simp] theorem setChannel_lamp_thermalWarn (ch : Fin 24) (x : LampChannel) (s : State) : (setChannel ch x s).lamp.thermalWarn = s.lamp.thermalWarn := rfl

/-! ## setStation -/

@[simp] theorem setStation_powered (m : Master) (x : Station) (s : State) : (setStation m x s).powered = s.powered := rfl
@[simp] theorem setStation_lines (m : Master) (x : Station) (s : State) : (setStation m x s).lines = s.lines := rfl
@[simp] theorem setStation_cc (m : Master) (x : Station) (s : State) : (setStation m x s).cc = s.cc := rfl
@[simp] theorem setStation_store (m : Master) (x : Station) (s : State) : (setStation m x s).store = s.store := rfl
@[simp] theorem setStation_notice (m : Master) (x : Station) (s : State) : (setStation m x s).notice = s.notice := rfl
@[simp] theorem setStation_plan (m : Master) (x : Station) (s : State) : (setStation m x s).plan = s.plan := rfl
@[simp] theorem setStation_arb (m : Master) (x : Station) (s : State) : (setStation m x s).arb = s.arb := rfl
@[simp] theorem setStation_lamp (m : Master) (x : Station) (s : State) : (setStation m x s).lamp = s.lamp := rfl
@[simp] theorem setStation_probe (m : Master) (x : Station) (s : State) : (setStation m x s).probe = s.probe := rfl
@[simp] theorem setStation_input (m : Master) (x : Station) (s : State) : (setStation m x s).input = s.input := rfl
@[simp] theorem setStation_act (m : Master) (x : Station) (s : State) : (setStation m x s).act = s.act := rfl
@[simp] theorem setStation_chain (m : Master) (x : Station) (s : State) : (setStation m x s).chain = s.chain := rfl
@[simp] theorem setStation_freshCount (m : Master) (x : Station) (s : State) : (setStation m x s).freshCount = s.freshCount := rfl
@[simp] theorem setStation_work (m : Master) (x : Station) (s : State) : (setStation m x s).work = s.work := rfl
@[simp] theorem setStation_pending (m : Master) (x : Station) (s : State) : (setStation m x s).pending = s.pending := rfl
@[simp] theorem setStation_port_stations (m : Master) (x : Station) (s : State) : (setStation m x s).port.stations = s.port.stations.set (masterIx m) x := rfl
@[simp] theorem setStation_port_lines (m : Master) (x : Station) (s : State) : (setStation m x s).port.lines = s.port.lines := rfl

/-! ## setLine -/

@[simp] theorem setLine_powered (p : Port) (x : Line) (s : State) : (setLine p x s).powered = s.powered := rfl
@[simp] theorem setLine_lines (p : Port) (x : Line) (s : State) : (setLine p x s).lines = s.lines := rfl
@[simp] theorem setLine_cc (p : Port) (x : Line) (s : State) : (setLine p x s).cc = s.cc := rfl
@[simp] theorem setLine_store (p : Port) (x : Line) (s : State) : (setLine p x s).store = s.store := rfl
@[simp] theorem setLine_notice (p : Port) (x : Line) (s : State) : (setLine p x s).notice = s.notice := rfl
@[simp] theorem setLine_plan (p : Port) (x : Line) (s : State) : (setLine p x s).plan = s.plan := rfl
@[simp] theorem setLine_arb (p : Port) (x : Line) (s : State) : (setLine p x s).arb = s.arb := rfl
@[simp] theorem setLine_lamp (p : Port) (x : Line) (s : State) : (setLine p x s).lamp = s.lamp := rfl
@[simp] theorem setLine_probe (p : Port) (x : Line) (s : State) : (setLine p x s).probe = s.probe := rfl
@[simp] theorem setLine_input (p : Port) (x : Line) (s : State) : (setLine p x s).input = s.input := rfl
@[simp] theorem setLine_act (p : Port) (x : Line) (s : State) : (setLine p x s).act = s.act := rfl
@[simp] theorem setLine_chain (p : Port) (x : Line) (s : State) : (setLine p x s).chain = s.chain := rfl
@[simp] theorem setLine_freshCount (p : Port) (x : Line) (s : State) : (setLine p x s).freshCount = s.freshCount := rfl
@[simp] theorem setLine_work (p : Port) (x : Line) (s : State) : (setLine p x s).work = s.work := rfl
@[simp] theorem setLine_pending (p : Port) (x : Line) (s : State) : (setLine p x s).pending = s.pending := rfl
@[simp] theorem setLine_port_stations (p : Port) (x : Line) (s : State) : (setLine p x s).port.stations = s.port.stations := rfl
@[simp] theorem setLine_port_lines (p : Port) (x : Line) (s : State) : (setLine p x s).port.lines = s.port.lines.set (portIx p) x := rfl

/-! ## setPlace -/

@[simp] theorem setPlace_powered (t : Fin 40) (x : Option Record) (s : State) : (setPlace t x s).powered = s.powered := rfl
@[simp] theorem setPlace_lines (t : Fin 40) (x : Option Record) (s : State) : (setPlace t x s).lines = s.lines := rfl
@[simp] theorem setPlace_cc (t : Fin 40) (x : Option Record) (s : State) : (setPlace t x s).cc = s.cc := rfl
@[simp] theorem setPlace_notice (t : Fin 40) (x : Option Record) (s : State) : (setPlace t x s).notice = s.notice := rfl
@[simp] theorem setPlace_plan (t : Fin 40) (x : Option Record) (s : State) : (setPlace t x s).plan = s.plan := rfl
@[simp] theorem setPlace_arb (t : Fin 40) (x : Option Record) (s : State) : (setPlace t x s).arb = s.arb := rfl
@[simp] theorem setPlace_lamp (t : Fin 40) (x : Option Record) (s : State) : (setPlace t x s).lamp = s.lamp := rfl
@[simp] theorem setPlace_probe (t : Fin 40) (x : Option Record) (s : State) : (setPlace t x s).probe = s.probe := rfl
@[simp] theorem setPlace_input (t : Fin 40) (x : Option Record) (s : State) : (setPlace t x s).input = s.input := rfl
@[simp] theorem setPlace_act (t : Fin 40) (x : Option Record) (s : State) : (setPlace t x s).act = s.act := rfl
@[simp] theorem setPlace_chain (t : Fin 40) (x : Option Record) (s : State) : (setPlace t x s).chain = s.chain := rfl
@[simp] theorem setPlace_port (t : Fin 40) (x : Option Record) (s : State) : (setPlace t x s).port = s.port := rfl
@[simp] theorem setPlace_freshCount (t : Fin 40) (x : Option Record) (s : State) : (setPlace t x s).freshCount = s.freshCount := rfl
@[simp] theorem setPlace_work (t : Fin 40) (x : Option Record) (s : State) : (setPlace t x s).work = s.work := rfl
@[simp] theorem setPlace_pending (t : Fin 40) (x : Option Record) (s : State) : (setPlace t x s).pending = s.pending := rfl
@[simp] theorem setPlace_store_records (t : Fin 40) (x : Option Record) (s : State) : (setPlace t x s).store.records = s.store.records.set t x := rfl
@[simp] theorem setPlace_store_queue (t : Fin 40) (x : Option Record) (s : State) : (setPlace t x s).store.queue = s.store.queue := rfl

/-! ## setQueue -/

@[simp] theorem setQueue_powered (m : Master) (q : NoticeQueue) (s : State) : (setQueue m q s).powered = s.powered := rfl
@[simp] theorem setQueue_lines (m : Master) (q : NoticeQueue) (s : State) : (setQueue m q s).lines = s.lines := rfl
@[simp] theorem setQueue_cc (m : Master) (q : NoticeQueue) (s : State) : (setQueue m q s).cc = s.cc := rfl
@[simp] theorem setQueue_store (m : Master) (q : NoticeQueue) (s : State) : (setQueue m q s).store = s.store := rfl
@[simp] theorem setQueue_plan (m : Master) (q : NoticeQueue) (s : State) : (setQueue m q s).plan = s.plan := rfl
@[simp] theorem setQueue_arb (m : Master) (q : NoticeQueue) (s : State) : (setQueue m q s).arb = s.arb := rfl
@[simp] theorem setQueue_lamp (m : Master) (q : NoticeQueue) (s : State) : (setQueue m q s).lamp = s.lamp := rfl
@[simp] theorem setQueue_probe (m : Master) (q : NoticeQueue) (s : State) : (setQueue m q s).probe = s.probe := rfl
@[simp] theorem setQueue_input (m : Master) (q : NoticeQueue) (s : State) : (setQueue m q s).input = s.input := rfl
@[simp] theorem setQueue_act (m : Master) (q : NoticeQueue) (s : State) : (setQueue m q s).act = s.act := rfl
@[simp] theorem setQueue_chain (m : Master) (q : NoticeQueue) (s : State) : (setQueue m q s).chain = s.chain := rfl
@[simp] theorem setQueue_port (m : Master) (q : NoticeQueue) (s : State) : (setQueue m q s).port = s.port := rfl
@[simp] theorem setQueue_freshCount (m : Master) (q : NoticeQueue) (s : State) : (setQueue m q s).freshCount = s.freshCount := rfl
@[simp] theorem setQueue_work (m : Master) (q : NoticeQueue) (s : State) : (setQueue m q s).work = s.work := rfl
@[simp] theorem setQueue_pending (m : Master) (q : NoticeQueue) (s : State) : (setQueue m q s).pending = s.pending := rfl
@[simp] theorem setQueue_notice (m : Master) (q : NoticeQueue) (s : State) : (setQueue m q s).notice = s.notice.set (masterIx m) q := rfl

/-! ## setStaging -/

@[simp] theorem setStaging_powered (p : Option Plan) (s : State) : (setStaging p s).powered = s.powered := rfl
@[simp] theorem setStaging_lines (p : Option Plan) (s : State) : (setStaging p s).lines = s.lines := rfl
@[simp] theorem setStaging_cc (p : Option Plan) (s : State) : (setStaging p s).cc = s.cc := rfl
@[simp] theorem setStaging_store (p : Option Plan) (s : State) : (setStaging p s).store = s.store := rfl
@[simp] theorem setStaging_notice (p : Option Plan) (s : State) : (setStaging p s).notice = s.notice := rfl
@[simp] theorem setStaging_arb (p : Option Plan) (s : State) : (setStaging p s).arb = s.arb := rfl
@[simp] theorem setStaging_lamp (p : Option Plan) (s : State) : (setStaging p s).lamp = s.lamp := rfl
@[simp] theorem setStaging_probe (p : Option Plan) (s : State) : (setStaging p s).probe = s.probe := rfl
@[simp] theorem setStaging_input (p : Option Plan) (s : State) : (setStaging p s).input = s.input := rfl
@[simp] theorem setStaging_act (p : Option Plan) (s : State) : (setStaging p s).act = s.act := rfl
@[simp] theorem setStaging_chain (p : Option Plan) (s : State) : (setStaging p s).chain = s.chain := rfl
@[simp] theorem setStaging_port (p : Option Plan) (s : State) : (setStaging p s).port = s.port := rfl
@[simp] theorem setStaging_freshCount (p : Option Plan) (s : State) : (setStaging p s).freshCount = s.freshCount := rfl
@[simp] theorem setStaging_work (p : Option Plan) (s : State) : (setStaging p s).work = s.work := rfl
@[simp] theorem setStaging_pending (p : Option Plan) (s : State) : (setStaging p s).pending = s.pending := rfl
@[simp] theorem setStaging_plan_active (p : Option Plan) (s : State) : (setStaging p s).plan.active = s.plan.active := rfl
@[simp] theorem setStaging_plan_staging (p : Option Plan) (s : State) : (setStaging p s).plan.staging = p := rfl
@[simp] theorem setStaging_plan_stored (p : Option Plan) (s : State) : (setStaging p s).plan.stored = s.plan.stored := rfl
@[simp] theorem setStaging_plan_commit (p : Option Plan) (s : State) : (setStaging p s).plan.commit = s.plan.commit := rfl
@[simp] theorem setStaging_plan_status (p : Option Plan) (s : State) : (setStaging p s).plan.status = s.plan.status := rfl

/-! ## setAllocQueue -/

@[simp] theorem setAllocQueue_powered (qs : List AllocReq) (s : State) : (setAllocQueue qs s).powered = s.powered := rfl
@[simp] theorem setAllocQueue_lines (qs : List AllocReq) (s : State) : (setAllocQueue qs s).lines = s.lines := rfl
@[simp] theorem setAllocQueue_cc (qs : List AllocReq) (s : State) : (setAllocQueue qs s).cc = s.cc := rfl
@[simp] theorem setAllocQueue_notice (qs : List AllocReq) (s : State) : (setAllocQueue qs s).notice = s.notice := rfl
@[simp] theorem setAllocQueue_plan (qs : List AllocReq) (s : State) : (setAllocQueue qs s).plan = s.plan := rfl
@[simp] theorem setAllocQueue_arb (qs : List AllocReq) (s : State) : (setAllocQueue qs s).arb = s.arb := rfl
@[simp] theorem setAllocQueue_lamp (qs : List AllocReq) (s : State) : (setAllocQueue qs s).lamp = s.lamp := rfl
@[simp] theorem setAllocQueue_probe (qs : List AllocReq) (s : State) : (setAllocQueue qs s).probe = s.probe := rfl
@[simp] theorem setAllocQueue_input (qs : List AllocReq) (s : State) : (setAllocQueue qs s).input = s.input := rfl
@[simp] theorem setAllocQueue_act (qs : List AllocReq) (s : State) : (setAllocQueue qs s).act = s.act := rfl
@[simp] theorem setAllocQueue_chain (qs : List AllocReq) (s : State) : (setAllocQueue qs s).chain = s.chain := rfl
@[simp] theorem setAllocQueue_port (qs : List AllocReq) (s : State) : (setAllocQueue qs s).port = s.port := rfl
@[simp] theorem setAllocQueue_freshCount (qs : List AllocReq) (s : State) : (setAllocQueue qs s).freshCount = s.freshCount := rfl
@[simp] theorem setAllocQueue_handed (qs : List AllocReq) (s : State) : (setAllocQueue qs s).work.handed = s.work.handed := rfl
@[simp] theorem setAllocQueue_turned (qs : List AllocReq) (s : State) :
    (setAllocQueue qs s).work.turned = (s.work.turned || (qs.isEmpty != s.store.queue.isEmpty)) := rfl
@[simp] theorem setAllocQueue_statusTurned (qs : List AllocReq) (s : State) :
    (setAllocQueue qs s).work.statusTurned = s.work.statusTurned := rfl
@[simp] theorem setAllocQueue_summaryTurned (qs : List AllocReq) (s : State) :
    (setAllocQueue qs s).work.summaryTurned = s.work.summaryTurned := rfl
@[simp] theorem setAllocQueue_pending (qs : List AllocReq) (s : State) : (setAllocQueue qs s).pending = s.pending := rfl
@[simp] theorem setAllocQueue_store_records (qs : List AllocReq) (s : State) : (setAllocQueue qs s).store.records = s.store.records := rfl
@[simp] theorem setAllocQueue_store_queue (qs : List AllocReq) (s : State) : (setAllocQueue qs s).store.queue = qs := rfl

/-! ## watched -/

@[simp] theorem watched_powered (old s : State) : (watched old s).powered = s.powered := rfl
@[simp] theorem watched_lines (old s : State) : (watched old s).lines = s.lines := rfl
@[simp] theorem watched_cc (old s : State) : (watched old s).cc = s.cc := rfl
@[simp] theorem watched_store (old s : State) : (watched old s).store = s.store := rfl
@[simp] theorem watched_notice (old s : State) : (watched old s).notice = s.notice := rfl
@[simp] theorem watched_plan (old s : State) : (watched old s).plan = s.plan := rfl
@[simp] theorem watched_arb (old s : State) : (watched old s).arb = s.arb := rfl
@[simp] theorem watched_lamp (old s : State) : (watched old s).lamp = s.lamp := rfl
@[simp] theorem watched_probe (old s : State) : (watched old s).probe = s.probe := rfl
@[simp] theorem watched_input (old s : State) : (watched old s).input = s.input := rfl
@[simp] theorem watched_act (old s : State) : (watched old s).act = s.act := rfl
@[simp] theorem watched_chain (old s : State) : (watched old s).chain = s.chain := rfl
@[simp] theorem watched_port (old s : State) : (watched old s).port = s.port := rfl
@[simp] theorem watched_freshCount (old s : State) : (watched old s).freshCount = s.freshCount := rfl
@[simp] theorem watched_pending (old s : State) : (watched old s).pending = s.pending := rfl
@[simp] theorem watched_handed (old s : State) : (watched old s).work.handed = s.work.handed := rfl
@[simp] theorem watched_turned (old s : State) : (watched old s).work.turned = s.work.turned := rfl

/-! ## mapCc -/

@[simp] theorem mapCc_powered (f : Coupling → Coupling) (s : State) : (mapCc f s).powered = s.powered := rfl
@[simp] theorem mapCc_lines (f : Coupling → Coupling) (s : State) : (mapCc f s).lines = s.lines := rfl
@[simp] theorem mapCc_store (f : Coupling → Coupling) (s : State) : (mapCc f s).store = s.store := rfl
@[simp] theorem mapCc_notice (f : Coupling → Coupling) (s : State) : (mapCc f s).notice = s.notice := rfl
@[simp] theorem mapCc_plan (f : Coupling → Coupling) (s : State) : (mapCc f s).plan = s.plan := rfl
@[simp] theorem mapCc_arb (f : Coupling → Coupling) (s : State) : (mapCc f s).arb = s.arb := rfl
@[simp] theorem mapCc_lamp (f : Coupling → Coupling) (s : State) : (mapCc f s).lamp = s.lamp := rfl
@[simp] theorem mapCc_probe (f : Coupling → Coupling) (s : State) : (mapCc f s).probe = s.probe := rfl
@[simp] theorem mapCc_input (f : Coupling → Coupling) (s : State) : (mapCc f s).input = s.input := rfl
@[simp] theorem mapCc_act (f : Coupling → Coupling) (s : State) : (mapCc f s).act = s.act := rfl
@[simp] theorem mapCc_chain (f : Coupling → Coupling) (s : State) : (mapCc f s).chain = s.chain := rfl
@[simp] theorem mapCc_port (f : Coupling → Coupling) (s : State) : (mapCc f s).port = s.port := rfl
@[simp] theorem mapCc_freshCount (f : Coupling → Coupling) (s : State) : (mapCc f s).freshCount = s.freshCount := rfl
@[simp] theorem mapCc_work (f : Coupling → Coupling) (s : State) : (mapCc f s).work = s.work := rfl
@[simp] theorem mapCc_pending (f : Coupling → Coupling) (s : State) : (mapCc f s).pending = s.pending := rfl
@[simp] theorem mapCc_cc (f : Coupling → Coupling) (s : State) : (mapCc f s).cc = f s.cc := rfl

/-! ## mapChain -/

@[simp] theorem mapChain_powered (f : Chain → Chain) (s : State) : (mapChain f s).powered = s.powered := rfl
@[simp] theorem mapChain_lines (f : Chain → Chain) (s : State) : (mapChain f s).lines = s.lines := rfl
@[simp] theorem mapChain_cc (f : Chain → Chain) (s : State) : (mapChain f s).cc = s.cc := rfl
@[simp] theorem mapChain_store (f : Chain → Chain) (s : State) : (mapChain f s).store = s.store := rfl
@[simp] theorem mapChain_notice (f : Chain → Chain) (s : State) : (mapChain f s).notice = s.notice := rfl
@[simp] theorem mapChain_plan (f : Chain → Chain) (s : State) : (mapChain f s).plan = s.plan := rfl
@[simp] theorem mapChain_arb (f : Chain → Chain) (s : State) : (mapChain f s).arb = s.arb := rfl
@[simp] theorem mapChain_lamp (f : Chain → Chain) (s : State) : (mapChain f s).lamp = s.lamp := rfl
@[simp] theorem mapChain_probe (f : Chain → Chain) (s : State) : (mapChain f s).probe = s.probe := rfl
@[simp] theorem mapChain_input (f : Chain → Chain) (s : State) : (mapChain f s).input = s.input := rfl
@[simp] theorem mapChain_act (f : Chain → Chain) (s : State) : (mapChain f s).act = s.act := rfl
@[simp] theorem mapChain_port (f : Chain → Chain) (s : State) : (mapChain f s).port = s.port := rfl
@[simp] theorem mapChain_freshCount (f : Chain → Chain) (s : State) : (mapChain f s).freshCount = s.freshCount := rfl
@[simp] theorem mapChain_work (f : Chain → Chain) (s : State) : (mapChain f s).work = s.work := rfl
@[simp] theorem mapChain_pending (f : Chain → Chain) (s : State) : (mapChain f s).pending = s.pending := rfl
@[simp] theorem mapChain_chain (f : Chain → Chain) (s : State) : (mapChain f s).chain = f s.chain := rfl

/-! ## mapLines -/

@[simp] theorem mapLines_powered (f : Lines → Lines) (s : State) : (mapLines f s).powered = s.powered := rfl
@[simp] theorem mapLines_cc (f : Lines → Lines) (s : State) : (mapLines f s).cc = s.cc := rfl
@[simp] theorem mapLines_store (f : Lines → Lines) (s : State) : (mapLines f s).store = s.store := rfl
@[simp] theorem mapLines_notice (f : Lines → Lines) (s : State) : (mapLines f s).notice = s.notice := rfl
@[simp] theorem mapLines_plan (f : Lines → Lines) (s : State) : (mapLines f s).plan = s.plan := rfl
@[simp] theorem mapLines_arb (f : Lines → Lines) (s : State) : (mapLines f s).arb = s.arb := rfl
@[simp] theorem mapLines_lamp (f : Lines → Lines) (s : State) : (mapLines f s).lamp = s.lamp := rfl
@[simp] theorem mapLines_probe (f : Lines → Lines) (s : State) : (mapLines f s).probe = s.probe := rfl
@[simp] theorem mapLines_input (f : Lines → Lines) (s : State) : (mapLines f s).input = s.input := rfl
@[simp] theorem mapLines_act (f : Lines → Lines) (s : State) : (mapLines f s).act = s.act := rfl
@[simp] theorem mapLines_chain (f : Lines → Lines) (s : State) : (mapLines f s).chain = s.chain := rfl
@[simp] theorem mapLines_port (f : Lines → Lines) (s : State) : (mapLines f s).port = s.port := rfl
@[simp] theorem mapLines_freshCount (f : Lines → Lines) (s : State) : (mapLines f s).freshCount = s.freshCount := rfl
@[simp] theorem mapLines_work (f : Lines → Lines) (s : State) : (mapLines f s).work = s.work := rfl
@[simp] theorem mapLines_pending (f : Lines → Lines) (s : State) : (mapLines f s).pending = s.pending := rfl
@[simp] theorem mapLines_lines (f : Lines → Lines) (s : State) : (mapLines f s).lines = f s.lines := rfl

/-! ## setClaim -/

@[simp] theorem setClaim_powered (c : Claimant) (f : Nat) (v : Option ClaimVal) (s : State) :
    (setClaim c f v s).powered = s.powered := by unfold setClaim; split <;> rfl
@[simp] theorem setClaim_lines (c : Claimant) (f : Nat) (v : Option ClaimVal) (s : State) :
    (setClaim c f v s).lines = s.lines := by unfold setClaim; split <;> rfl
@[simp] theorem setClaim_cc (c : Claimant) (f : Nat) (v : Option ClaimVal) (s : State) :
    (setClaim c f v s).cc = s.cc := by unfold setClaim; split <;> rfl
@[simp] theorem setClaim_store (c : Claimant) (f : Nat) (v : Option ClaimVal) (s : State) :
    (setClaim c f v s).store = s.store := by unfold setClaim; split <;> rfl
@[simp] theorem setClaim_notice (c : Claimant) (f : Nat) (v : Option ClaimVal) (s : State) :
    (setClaim c f v s).notice = s.notice := by unfold setClaim; split <;> rfl
@[simp] theorem setClaim_plan (c : Claimant) (f : Nat) (v : Option ClaimVal) (s : State) :
    (setClaim c f v s).plan = s.plan := by unfold setClaim; split <;> rfl
@[simp] theorem setClaim_lamp (c : Claimant) (f : Nat) (v : Option ClaimVal) (s : State) :
    (setClaim c f v s).lamp = s.lamp := by unfold setClaim; split <;> rfl
@[simp] theorem setClaim_probe (c : Claimant) (f : Nat) (v : Option ClaimVal) (s : State) :
    (setClaim c f v s).probe = s.probe := by unfold setClaim; split <;> rfl
@[simp] theorem setClaim_input (c : Claimant) (f : Nat) (v : Option ClaimVal) (s : State) :
    (setClaim c f v s).input = s.input := by unfold setClaim; split <;> rfl
@[simp] theorem setClaim_act (c : Claimant) (f : Nat) (v : Option ClaimVal) (s : State) :
    (setClaim c f v s).act = s.act := by unfold setClaim; split <;> rfl
@[simp] theorem setClaim_chain (c : Claimant) (f : Nat) (v : Option ClaimVal) (s : State) :
    (setClaim c f v s).chain = s.chain := by unfold setClaim; split <;> rfl
@[simp] theorem setClaim_port (c : Claimant) (f : Nat) (v : Option ClaimVal) (s : State) :
    (setClaim c f v s).port = s.port := by unfold setClaim; split <;> rfl
@[simp] theorem setClaim_freshCount (c : Claimant) (f : Nat) (v : Option ClaimVal) (s : State) :
    (setClaim c f v s).freshCount = s.freshCount := by unfold setClaim; split <;> rfl
@[simp] theorem setClaim_work (c : Claimant) (f : Nat) (v : Option ClaimVal) (s : State) :
    (setClaim c f v s).work = s.work := by unfold setClaim; split <;> rfl
@[simp] theorem setClaim_pending (c : Claimant) (f : Nat) (v : Option ClaimVal) (s : State) :
    (setClaim c f v s).pending = s.pending := by unfold setClaim; split <;> rfl
@[simp] theorem setClaim_arb_resolved (c : Claimant) (f : Nat) (v : Option ClaimVal) (s : State) :
    (setClaim c f v s).arb.resolved = s.arb.resolved := by unfold setClaim; split <;> rfl
@[simp] theorem setClaim_arb_shed (c : Claimant) (f : Nat) (v : Option ClaimVal) (s : State) :
    (setClaim c f v s).arb.shed = s.arb.shed := by unfold setClaim; split <;> rfl
@[simp] theorem setClaim_arb_frontSilent (c : Claimant) (f : Nat) (v : Option ClaimVal) (s : State) :
    (setClaim c f v s).arb.frontSilent = s.arb.frontSilent := by unfold setClaim; split <;> rfl

end Sys2Proof.Machine
end

