-- ==== Sys2Proof/Laws/Frame.lean ====
section
/-! SUPPORT. How frames compose, and the frames of the setters and of the frames made for a port. -/

namespace Sys2Proof.Machine

/-! ## Composition -/

theorem Piece.same_refl (s : State) (p : Piece) : Piece.same s s p := by cases p <;> simp [Piece.same]

theorem Piece.same_trans {s t u : State} {p : Piece} (h : Piece.same s t p) (k : Piece.same t u p) :
    Piece.same s u p := by
  cases p <;> simp_all [Piece.same]
  all_goals
    rw [← h, ← k]

theorem Frame.refl (a : List Piece) (s : State) : Frame a s s := fun p _ => Piece.same_refl s p

theorem Frame.mono {a b : List Piece} {s t : State} (h : Frame a s t) (ab : ∀ p ∈ a, p ∈ b) : Frame b s t :=
  fun p hp => h p fun ha => hp (ab p ha)

/-- Two frames inside a third one compose. -/
theorem Frame.join {a b c : List Piece} {s t u : State} (h : Frame a s t) (k : Frame b t u)
    (ac : ∀ p ∈ a, p ∈ c) (bc : ∀ p ∈ b, p ∈ c) : Frame c s u :=
  fun p hp => Piece.same_trans (h p fun ha => hp (ac p ha)) (k p fun hb => hp (bc p hb))

/-- Frames of one list compose. -/
theorem Frame.trans {a : List Piece} {s t u : State} (h : Frame a s t) (k : Frame a t u) : Frame a s u :=
  fun p hp => Piece.same_trans (h p hp) (k p hp)

theorem Frame.ite {a : List Piece} {s t u : State} (c : Prop) [Decidable c] (h : Frame a s t) (k : Frame a s u) :
    Frame a s (if c then t else u) := by split <;> assumption

/-- An operation with a frame at each element has it over a list. -/
theorem forEach_frame {α : Type} {a : List Piece} {f : α → State → State} (h : ∀ x s, Frame a s (f x s))
    (xs : List α) (s : State) : Frame a s (forEach xs f s) := by
  induction xs generalizing s with
  | nil => exact Frame.refl a s
  | cons x xs ih => exact (h x s).trans (ih (f x s))

/-! ## Lines of the ports -/

theorem portIx_inj {p q : Port} (h : portIx p = portIx q) : p = q := by
  revert h; cases p <;> cases q <;> decide

theorem line_setLine (p q : Port) (x : Line) (s : State) :
    line (setLine p x s) q = if q = p then x else line s q := by
  unfold line setLine
  by_cases h : q = p
  · subst h; simp
  · have : portIx p ≠ portIx q := fun e => h (portIx_inj e).symm
    have hv : (portIx p).val ≠ (portIx q).val := fun e => this (Fin.ext e)
    simp [h, Vector.getElem_set_ne _ _ hv]

@[simp] theorem masterPort_ne_rear (m : Master) : masterPort m ≠ .rear := by cases m <;> decide

@[simp] theorem rear_ne_masterPort (m : Master) : Port.rear ≠ masterPort m := by cases m <;> decide

@[simp] theorem masterPort_eq_iff (m n : Master) : masterPort m = masterPort n ↔ m = n := by
  cases m <;> cases n <;> decide

/-- A line that does not stand in the ports that changed is the same. -/
theorem line_congr {s t : State} (h : t.port.lines = s.port.lines) (p : Port) : line t p = line s p := by
  unfold line; rw [h]

/-! ## Frames of the setters -/

theorem setSeq_frame (n : Fin 4) (q : Sequencer) (s : State) : Frame [.seqs] s (setSeq n q s) := by
  intro p hp; cases p <;> simp_all [Piece.same, line]

theorem setInput_frame (i : Fin 10) (x : Input) (s : State) : Frame [.inputs] s (setInput i x s) := by
  intro p hp; cases p <;> simp_all [Piece.same, line]

theorem setCounter_frame (c : Fin 2) (x : Counter) (s : State) : Frame [.counters] s (setCounter c x s) := by
  intro p hp; cases p <;> simp_all [Piece.same, line]

theorem setOut_frame (o : Fin 6) (x : Actuator) (s : State) : Frame [.outs] s (setOut o x s) := by
  intro p hp; cases p <;> simp_all [Piece.same, line]

theorem setStation_frame (m : Master) (x : Station) (s : State) : Frame [.stations] s (setStation m x s) := by
  intro p hp; cases p <;> simp_all [Piece.same, line]

theorem setPlace_frame (t : Fin 40) (x : Option Record) (s : State) : Frame [.store] s (setPlace t x s) := by
  intro p hp; cases p <;> simp_all [Piece.same, line]

theorem setAllocQueue_frame (qs : List AllocReq) (s : State) : Frame [.store, .handed] s (setAllocQueue qs s) := by
  intro p hp; cases p <;> simp_all [Piece.same, line]

theorem watched_frame (old s : State) : Frame [.handed] s (watched old s) := by
  intro p hp; cases p <;> simp_all [Piece.same, line]

/-- A watched step changes what the step changes, and the marks of the event. -/
theorem Frame.watched {a : List Piece} {s t : State} (h : Frame a s t) (m : .handed ∈ a := by decide) :
    Frame a s (Machine.watched s t) :=
  h.trans ((watched_frame s t).mono (by simpa using m))

theorem setQueue_frame (m : Master) (q : NoticeQueue) (s : State) : Frame [.notice] s (setQueue m q s) := by
  intro p hp; cases p <;> simp_all [Piece.same, line]

theorem setStaging_frame (x : Option Plan) (s : State) : Frame [.planStaging] s (setStaging x s) := by
  intro p hp; cases p <;> simp_all [Piece.same, line]

theorem setClaim_frame (c : Claimant) (f : Nat) (v : Option ClaimVal) (s : State) :
    Frame [.claims] s (setClaim c f v s) := by
  intro p hp; cases p <;> simp_all [Piece.same, line]

theorem setLine_master_frame (m : Master) (x : Line) (s : State) :
    Frame [.masterFrames] s (setLine (masterPort m) x s) := by
  intro p hp; cases p <;> simp_all [Piece.same, line_setLine]

theorem setLine_rear_frame (x : Line) (s : State) : Frame [.rearFrames] s (setLine .rear x s) := by
  intro p hp; cases p <;> simp_all [Piece.same, line_setLine]

/-- A channel written with its fault state and clear window as before. -/
theorem setChannel_drive_frame (ch : Fin 24) (x : LampChannel) (s : State)
    (hf : x.fault = s.lamp.channels[ch].fault) (hw : x.clearWindow = s.lamp.channels[ch].clearWindow) :
    Frame [.drive] s (setChannel ch x s) := by
  intro p hp
  cases p <;> simp_all [Piece.same, line]
  intro k
  by_cases h : ch.val = k.val
  · have : ch = k := Fin.ext h
    subst this; simp [hf, hw]
  · simp [Vector.getElem_set_ne _ _ h]

theorem setChannel_frame (ch : Fin 24) (x : LampChannel) (s : State) :
    Frame [.drive, .faults] s (setChannel ch x s) := by
  intro p hp; cases p <;> simp_all [Piece.same, line]

/-! ## Frames of the frames made -/

theorem pushFrame_master_frame (m : Master) (f : OutFrame) (s : State) :
    Frame [.masterFrames] s (pushFrame (masterPort m) f s) := setLine_master_frame m _ s

theorem pushFrame_rear_frame (f : OutFrame) (s : State) : Frame [.rearFrames] s (pushFrame .rear f s) :=
  setLine_rear_frame _ s

theorem replyWith_frame (h : ReqHdr) (r : Result) (b : Body) (s : State) :
    Frame [.masterFrames] s (replyWith h r b s) := by
  unfold replyWith; split
  · exact Frame.refl _ _
  · exact pushFrame_master_frame _ _ _

theorem reply_frame (h : ReqHdr) (r : Result) (s : State) : Frame [.masterFrames] s (reply h r s) :=
  replyWith_frame h r .empty s

theorem refuseEarly_frame (h : ReqHdr) (r : Result) (s : State) : Frame [.masterFrames] s (refuseEarly h r s) := by
  unfold refuseEarly; split
  · exact Frame.refl _ _
  · exact pushFrame_master_frame _ _ _

theorem sendHello_frame (s : State) : Frame [.masterFrames] s (sendHello s) := pushFrame_master_frame .front _ s

/-- The chain block may change freely. -/
theorem mapChain_frame (f : Chain → Chain) (s : State) :
    Frame [.number, .rear, .repeats, .forward] s (mapChain f s) := by
  intro p hp; cases p <;> simp_all [Piece.same, line]

/-- The coupling controller may change freely. -/
theorem mapCc_frame (f : Coupling → Coupling) (s : State) :
    Frame [.state, .coupling, .motion, .causes, .events, .idle] s (mapCc f s) := by
  intro p hp; cases p <;> simp_all [Piece.same, line]

theorem sendSummary_frame (s : State) : Frame [.masterFrames, .repeats] s (sendSummary s) := by
  have k : ∀ t, Frame [.repeats] t (mapChain (fun c => { c with summaryRepeat := .running }) t) := by
    intro t p hp; cases p <;> simp_all [Piece.same, line]
  exact (pushFrame_master_frame .front _ s).join (k _) (by decide) (by decide)

theorem sendPhase_frame (s : State) : Frame [.rearFrames] s (sendPhase s) := pushFrame_rear_frame _ s

end Sys2Proof.Machine
end

