-- ==== Sys2Proof/Laws/Blocks.lean ====
section
/-! SUPPORT. What the operations of the notice, lamp, arbiter, actuator and input blocks can change. -/

namespace Sys2Proof.Machine

/-! ## Notices and record writes -/

theorem hand_frame (t : Fin 40) (s : State) : Frame [.handed] s (hand t s) := by
  unfold hand; split
  · exact Frame.refl _ _
  · intro p hp; cases p <;> simp_all [Piece.same, line]

theorem dropTag_frame (t : Fin 40) (s : State) : Frame [.notice, .handed] s (dropTag t s) := by
  intro p hp; cases p <;> simp_all [Piece.same, line, dropTag]

theorem renameTag_frame (a b : Fin 40) (s : State) : Frame [.notice, .handed] s (renameTag a b s) := by
  intro p hp; cases p <;> simp_all [Piece.same, line, renameTag]

theorem putContent_frame (t : Fin 40) (c : Content) (silent : Bool) (s : State) :
    Frame [.store, .handed] s (putContent t c silent s) := by
  unfold putContent; split
  · exact Frame.refl _ _
  · split
    · exact Frame.refl _ _
    · refine Frame.ite _ ((setPlace_frame _ _ _).mono (by decide)) ?_
      exact (setPlace_frame _ _ _).join (hand_frame _ _) (by decide) (by decide)

theorem touchContent_frame (t : Fin 40) (c : Content) (s : State) : Frame [.store, .handed] s (touchContent t c s) := by
  unfold touchContent; split
  · exact Frame.refl _ _
  · exact (setPlace_frame _ _ _).join (hand_frame _ _) (by decide) (by decide)

theorem touchRecord_frame (t : Fin 40) (s : State) : Frame [.store, .handed] s (touchRecord t s) := by
  unfold touchRecord
  cases s.store.records[t] with
  | none => exact Frame.refl _ _
  | some r => exact touchContent_frame _ _ _

/-! ## Lamp block -/

theorem driveOf_refresh (tb : Timebase) (c : LampChannel) :
    (refreshChannel tb c).fault = c.fault ∧ (refreshChannel tb c).clearWindow = c.clearWindow ∧
      (refreshChannel tb c).command = c.command := by
  unfold refreshChannel; dsimp only; split <;> simp

theorem refreshDriven_frame (s : State) : Frame [.drive] s (refreshDriven s) := by
  intro p hp; cases p <;> simp_all [Piece.same, line, refreshDriven, driveOf_refresh]

theorem setTimebase_frame (tb : Timebase) (t : Timer) (s : State) : Frame [.drive] s (setTimebase tb t s) := by
  intro p hp; cases p <;> simp_all [Piece.same, line, setTimebase]

theorem refreshTimebase_frame (s : State) : Frame [.drive, .rearFrames] s (refreshTimebase s) := by
  unfold refreshTimebase; split
  · split
    · refine (setTimebase_frame _ _ _).join (b := [.rearFrames]) (Frame.ite _ (sendPhase_frame _) (Frame.refl _ _))
        (by decide) (by decide)
    · exact Frame.refl _ _
  · exact (setTimebase_frame _ _ _).mono (by decide)

theorem refreshLamps_frame (s : State) : Frame [.drive, .rearFrames] s (refreshLamps s) :=
  (refreshTimebase_frame s).join (refreshDriven_frame _) (by decide) (by decide)

theorem setFault_frame (ch : Fin 24) (f : FaultState) (s : State) : Frame [.drive, .faults] s (setFault ch f s) :=
  setChannel_frame _ _ _

theorem resetCounts_frame (ch : Fin 24) (s : State) : Frame [.drive] s (resetCounts ch s) :=
  setChannel_drive_frame _ _ _ rfl rfl

/-! ## Claim arbiter -/

theorem resolveAll_frame (s : State) : Frame [.resolution] s (resolveAll s) := by
  intro p hp; cases p <;> simp_all [Piece.same, line, resolveAll]

theorem filterBudget_frame (s : State) : Frame [.resolution] s (filterBudget s) := by
  intro p hp; cases p <;> simp_all [Piece.same, line, filterBudget]

theorem handCommands_frame (s : State) : Frame [.drive] s (handCommands s) := by
  intro p hp; cases p <;> simp_all [Piece.same, line, handCommands]

/-- A new resolution changes nothing but its outcome, the lamps' drive, and a PHASE on REAR. -/
theorem rearbitrate_frame (s : State) : Frame arbitrated s (rearbitrate s) := by
  have h1 := (resolveAll_frame s).trans (filterBudget_frame _)
  have h2 : Frame [.resolution, .drive] s (handCommands (filterBudget (resolveAll s))) :=
    h1.join (handCommands_frame _) (by decide) (by decide)
  exact h2.join (refreshLamps_frame _) (by decide) (by decide)

theorem clearClaims_frame (c : Claimant) (s : State) : Frame [.claims] s (clearClaims c s) := by
  intro p hp; cases p <;> simp_all [Piece.same, line, clearClaims]

theorem placeFallback_frame (s : State) : Frame [.claims] s (placeFallback s) :=
  forEach_frame (fun _ _ => setClaim_frame _ _ _ _) _ _

theorem dropTestClaims_frame (s : State) : Frame [.claims] s (dropTestClaims s) :=
  forEach_frame (fun _ _ => setClaim_frame _ _ _ _) _ _

/-- Judging the hold drops claims at most, and resolves again. -/
theorem arbAfter_frame (old s : State) : Frame (.claims :: arbitrated) s (arbAfter old s) := by
  unfold arbAfter
  refine Frame.join (a := [.claims]) ?_ (rearbitrate_frame _) (by decide) (by decide)
  exact Frame.ite _ (dropTestClaims_frame _) (Frame.refl _ _)

/-! ## Actuator block -/

/-- What the end of a run can change. -/
def runPieces : List Piece := [.outs, .store, .handed]

theorem mirrorWith_frame (o : Fin 6) (f : ActRec → ActRec) (s : State) :
    Frame [.store, .handed] s (mirrorWith o f s) := by
  unfold mirrorWith; split
  · exact putContent_frame _ _ _ _
  · exact Frame.refl _ _

theorem mirrorOut_frame (o : Fin 6) (s : State) : Frame [.store, .handed] s (mirrorOut o s) := mirrorWith_frame _ _ _

theorem endRun_frame (o : Fin 6) (r : EndReason) (s : State) : Frame runPieces s (endRun o r s) :=
  (setOut_frame _ _ _).join (mirrorWith_frame _ _ _) (by decide) (by decide)

theorem endMet_frame (o : Fin 6) (s : State) : Frame runPieces s (endMet o s) := by
  have h : Frame runPieces s (setOut o (endedOut .target s.act.outs[o]) s) := (setOut_frame _ _ _).mono (by decide)
  unfold endMet; dsimp only; split
  · exact h.trans ((touchContent_frame _ _ _).mono (by decide))
  · exact h

theorem freeOut_frame (o : Fin 6) (s : State) : Frame runPieces s (freeOut o s) :=
  (setOut_frame _ _ _).join (mirrorOut_frame _ _) (by decide) (by decide)

theorem dropHolds_frame (m : Master) (r : EndReason) (s : State) : Frame runPieces s (dropHolds m r s) := by
  refine forEach_frame (fun o t => ?_) _ _
  split
  · split
    · exact endRun_frame _ _ _
    · exact freeOut_frame _ _
  · exact Frame.refl _ _

theorem judgeRuns_frame (s : State) : Frame runPieces s (judgeRuns s) :=
  forEach_frame (fun _ _ => Frame.ite _ (endRun_frame _ _ _) (Frame.refl _ _)) _ _

/-- What a change of coupling state or motion changes beyond itself. -/
def couplingPieces : List Piece := [.claims, .resolution, .drive, .rearFrames, .outs, .store, .handed]

theorem changeCoupling_frame (f : State → State) (s : State) :
    Frame couplingPieces (f s) (changeCoupling f s) :=
  (arbAfter_frame s (f s)).join (judgeRuns_frame _) (by decide) (by decide)

theorem positionRules_frame (c : Fin 2) (s : State) : Frame runPieces s (positionRules c s) := by
  refine forEach_frame (fun o t => ?_) _ _
  unfold positionRule; dsimp only; split
  · exact Frame.refl _ _
  · split
    · exact endRun_frame _ _ _
    · split
      · exact endRun_frame _ _ _
      · exact Frame.refl _ _

theorem touchLinked_frame (c : Fin 2) (s : State) : Frame [.store, .handed] s (touchLinked c s) := by
  refine forEach_frame (fun o t => ?_) _ _
  split
  · exact Frame.ite _ (touchRecord_frame _ _) (Frame.refl _ _)
  · exact Frame.refl _ _

/-- What a move of a counter can change. -/
def counterPieces : List Piece := [.counters, .outs, .store, .handed]

theorem moveCounter_frame (c : Fin 2) (x : Counter) (s : State) : Frame counterPieces s (moveCounter c x s) := by
  unfold moveCounter; dsimp only
  have h1 : Frame counterPieces s (setCounter c x s) := (setCounter_frame _ _ _).mono (by decide)
  have h2 : ∀ t, Frame counterPieces t (touchLinked c t) := fun t => (touchLinked_frame c t).mono (by decide)
  have h3 : ∀ t, Frame counterPieces t (positionRules c t) := fun t => (positionRules_frame c t).mono (by decide)
  have h4 : ∀ t, Frame counterPieces t (judgeRuns t) := fun t => (judgeRuns_frame t).mono (by decide)
  split
  · exact Frame.ite _ h1 (h1.trans (h3 _))
  · exact ((h1.trans (h2 _)).trans (h3 _)).trans (h4 _)

theorem startRun_frame (o : Fin 6) (r : RunState) (k : RunKind) (g : Option Nat) (s : State) :
    Frame [.outs] s (startRun o r k g s) := setOut_frame _ _ _

/-! ## Input block -/

theorem homeCounter_frame (c : Fin 2) (s : State) : Frame counterPieces s (homeCounter c s) := by
  unfold homeCounter; dsimp only
  exact Frame.ite _ (Frame.refl _ _) (moveCounter_frame _ _ _)

theorem homeFor_frame (fn : Nat) (s : State) : Frame counterPieces s (homeFor fn s) := by
  refine forEach_frame (fun o t => ?_) _ _
  split
  · split
    · cases linkCounter _ with
      | none => exact Frame.refl _ _
      | some c => exact homeCounter_frame _ _
    · exact Frame.refl _ _
  · exact Frame.refl _ _

/-- What deriving the SENSE levels again can change. -/
def sensePieces : List Piece := [.sense, .counters, .outs, .store, .handed]

theorem senseScan_frame (s : State) : Frame sensePieces s (senseScan s) := by
  unfold senseScan; dsimp only; split
  · exact Frame.refl _ _
  · refine Frame.join (a := sensePieces) ?_ (judgeRuns_frame _) (by decide) (by decide)
    refine Frame.join (a := [.sense]) (b := counterPieces) ?_ (forEach_frame (fun k t => homeFor_frame _ _) _ _)
      (by decide) (by decide)
    intro p hp; cases p <;> simp_all [Piece.same, line]

theorem reclassInputs_frame (old : Plan) (s : State) : Frame [.inputs] s (reclassInputs old s) := by
  intro p hp; cases p <;> simp_all [Piece.same, line, reclassInputs]

theorem takeSnapshot_frame (s : State) : Frame [.inputs] s (takeSnapshot s) := by
  intro p hp; cases p <;> simp_all [Piece.same, line, takeSnapshot]

/-! ## Views -/

/-- A copy written with its own check is valid (R53). -/
@[simp] theorem StoredPlan.valid_of (p : Plan) : (StoredPlan.of p).valid = some p := if_pos rfl

/-- The coupling supply keeps the drive supply present (R161). -/
theorem driveSupply_of_cplPresent {s : State} (h : s.lines.cplPresent = true) : driveSupply s = true := by
  simp [driveSupply, h]

end Sys2Proof.Machine
end

