-- ==== Sys2Proof/Laws/Store.lean ====
section
/-! SUPPORT. What the operations of the record store can change, and how they balance the cells (R1). -/

namespace Sys2Proof.Machine

/-! ## Frames -/

/-- What a store operation can change: the store, the queues' tags, and what the other blocks make of a record. -/
def storePieces : List Piece :=
  [.store, .notice, .handed, .resolution, .drive, .rearFrames, .sense, .counters, .outs]

theorem afterLampChange_frame (ch : Fin 24) (a b : LampRec) (s : State) :
    Frame arbitrated s (afterLampChange ch a b s) := by
  have key := Frame.ite (a := arbitrated) (a.expected = b.expected && a.loadClass = b.loadClass && a.openMask = b.openMask)
    (Frame.refl _ s) ((resetCounts_frame ch s).mono (by decide))
  exact Frame.ite _ key (key.trans (rearbitrate_frame _))

theorem afterChange_frame (a b : Content) (s : State) : Frame storePieces s (afterChange a b s) := by
  unfold afterChange; split
  · exact (afterLampChange_frame _ _ _ _).mono (by decide)
  · exact (senseScan_frame _).mono (by decide)
  · exact Frame.refl _ _

theorem updateRec_frame (t : Fin 40) (c : Content) (silent : Bool) (s : State) :
    Frame storePieces s (updateRec t c silent s) := by
  unfold updateRec; split
  · exact Frame.refl _ _
  · exact Frame.ite _ (Frame.refl _ _)
      ((putContent_frame _ _ _ _).join (afterChange_frame _ _ _) (by decide) (by decide)).watched

theorem afterPresence_frame (c : Content) (released : Bool) (s : State) :
    Frame storePieces s (afterPresence c released s) := by
  unfold afterPresence; split
  · exact (resetCounts_frame _ _).join (rearbitrate_frame _) (by decide) (by decide)
  · exact (senseScan_frame _).mono (by decide)
  · exact Frame.ite _ ((setOut_frame _ _ _).mono (by decide)) (Frame.refl _ _)
  · exact Frame.refl _ _

theorem createRec_frame (c : Content) (s : State) : Frame storePieces s (createRec c s) := by
  unfold createRec; split
  · exact Frame.refl _ _
  · refine Frame.watched (Frame.join (a := [.store, .handed]) ?_ (afterPresence_frame _ _ _) (by decide) (by decide))
    exact (setPlace_frame _ _ _).join (hand_frame _ _) (by decide) (by decide)

theorem removeRec_frame (t : Fin 40) (s : State) : Frame storePieces s (removeRec t s) := by
  unfold removeRec; split
  · exact Frame.refl _ _
  · refine Frame.watched
      (Frame.join (a := [.store, .notice, .handed]) ?_ (afterPresence_frame _ _ _) (by decide) (by decide))
    exact (setPlace_frame _ _ _).join (dropTag_frame _ _) (by decide) (by decide)

theorem supersedeRaw_frame (t : Fin 40) (c : Content) (s : State) : Frame storePieces s (supersedeRaw t c s) := by
  unfold supersedeRaw; split
  · rename_i r u _ _
    refine Frame.watched
      (Frame.join (a := [.store, .notice, .handed]) ?_ (afterChange_frame _ _ _) (by decide) (by decide))
    refine Frame.join (a := [.store, .notice, .handed]) ?_ (hand_frame _ _) (by decide) (by decide)
    refine Frame.join (a := [.store]) ?_ (renameTag_frame _ _ _) (by decide) (by decide)
    exact (setPlace_frame _ _ _).trans (setPlace_frame _ _ _)
  · exact Frame.refl _ _

theorem writeContent_frame (j : Subject) (mk : Option Content → Option Content) (s : State) :
    Frame storePieces s (writeContent j mk s) := by
  unfold writeContent; split
  · cases contentFor j (mk none) with
    | none => exact Frame.refl _ _
    | some c => exact createRec_frame _ _
  · rename_i t r _
    cases contentFor j (mk (some r.content)) with
    | none => exact Frame.refl _ _
    | some c => exact Frame.ite _ (updateRec_frame _ _ _ _) (supersedeRaw_frame _ _ _)

/-- What a re-try of the pending allocation queue can change (R14). -/
def retryPieces : List Piece := .seqs :: .coupling :: storePieces

theorem dropHeld_frame (r : Requester) (s : State) : Frame [.seqs, .coupling] s (dropHeld r s) := by
  unfold dropHeld; split
  · exact (setSeq_frame _ _ _).mono (by decide)
  · exact Frame.refl _ _
  · intro p hp; cases p <;> simp_all [Piece.same, line]

theorem completeReq_frame (q : AllocReq) (s : State) : Frame retryPieces s (completeReq q s) := by
  refine Frame.join (a := storePieces) (Frame.ite _ ?_ (writeContent_frame _ _ _)) (dropHeld_frame _ _) (by decide)
    (by decide)
  cases liveTag s q.subject with
  | none => exact Frame.refl _ _
  | some t => exact removeRec_frame _ _

theorem retryQueue_frame (k : Nat) (s : State) : Frame retryPieces s (retryQueue k s) := by
  induction k generalizing s with
  | zero => exact Frame.refl _ _
  | succ k ih =>
    unfold retryQueue; split
    · exact Frame.refl _ _
    · refine Frame.ite _ ?_ (Frame.refl _ _)
      refine Frame.trans ?_ (ih _)
      exact ((setAllocQueue_frame _ s).mono (by decide)).trans (completeReq_frame _ _)

theorem retry_frame (s : State) : Frame retryPieces s (retry s) := retryQueue_frame _ _

theorem releaseRec_frame (t : Fin 40) (s : State) : Frame retryPieces s (releaseRec t s) :=
  (removeRec_frame t s).join (retry_frame _) (by decide) (by decide)

theorem releaseSubject_frame (j : Subject) (s : State) : Frame retryPieces s (releaseSubject j s) := by
  unfold releaseSubject
  cases liveTag s j with
  | none => exact Frame.refl _ _
  | some t => exact releaseRec_frame _ _

theorem supersede_frame (t : Fin 40) (c : Content) (s : State) : Frame retryPieces s (supersede t c s) :=
  (supersedeRaw_frame t c s).join (retry_frame _) (by decide) (by decide)

theorem withdraw_frame (who : Requester → Bool) (s : State) : Frame retryPieces s (withdraw who s) := by
  unfold withdraw; dsimp only
  have h : ∀ qs, Frame retryPieces s (setAllocQueue qs s) := fun qs => (setAllocQueue_frame qs s).mono (by decide)
  exact Frame.ite _ (h _) ((h _).trans (retry_frame _))

theorem requestAlloc_frame (q : AllocReq) (mk : Option Content → Option Content) (s : State) :
    Frame storePieces s (requestAlloc q mk s).1 := by
  unfold requestAlloc; split
  · exact writeContent_frame _ _ _
  · exact (setAllocQueue_frame _ _).mono (by decide)

theorem storeResult_frame (n : Fin 4) (res : StepResult) (s : State) :
    Frame retryPieces s (storeResult n res s).1 := by
  unfold storeResult; dsimp only; split
  · exact releaseSubject_frame _ _
  · split
    · exact (requestAlloc_frame _ _ _).mono (by decide)
    · split
      · exact (updateRec_frame _ _ _ _).mono (by decide)
      · exact (requestAlloc_frame _ _ _).mono (by decide)

theorem writeUnit_frame (s : State) : Frame storePieces s (writeUnit s) := by
  unfold writeUnit; split
  · exact updateRec_frame _ _ _ _
  · exact Frame.ite _ (Frame.refl _ _) (requestAlloc_frame _ _ _)

theorem loseUnit_frame (s : State) : Frame storePieces s (loseUnit s) := by
  unfold loseUnit; split
  · exact updateRec_frame _ _ _ _
  · exact Frame.refl _ _

theorem mirrorLamp_frame (ch : Fin 24) (f : LampRec → LampRec) (s : State) :
    Frame storePieces s (mirrorLamp ch f s) := by
  unfold mirrorLamp; split
  · exact updateRec_frame _ _ _ _
  · exact Frame.refl _ _

theorem lampClassify_frame (ch : Fin 24) (cls : LoadClass) (s : State) :
    Frame [.drive, .faults] s (lampClassify ch cls s) := by
  unfold lampClassify; dsimp only
  exact Frame.ite _ (Frame.ite _ (Frame.refl _ _) (setFault_frame _ _ _)) (setFault_frame _ _ _)

/-- What the application of a step result can change (R98). -/
def resultPieces : List Piece := .faults :: retryPieces

theorem applyResult_frame (n : Fin 4) (res : StepResult) (s : State) :
    Frame resultPieces s (applyResult n res s).1 := by
  unfold applyResult; split
  · refine Frame.watched (Frame.join (a := resultPieces) ?_ (rearbitrate_frame _) (by decide) (by decide))
    exact (lampClassify_frame _ _ _).join (storeResult_frame _ _ _) (by decide) (by decide)
  · exact (storeResult_frame _ _ _).mono (by decide)

end Sys2Proof.Machine
end

