-- ==== Sys2Proof/Laws/Chain.lean ====
section
/-! SUPPORT. What the operations of the chain block and the ports can change. -/

namespace Sys2Proof.Machine

theorem emptyDown_frame (s : State) : Frame [.rearFrames, .forward] s (emptyDown s) := by
  have h : ∀ t, Frame [.forward] t (mapChain (fun c => { c with down := [] }) t) := by
    intro t p hp; cases p <;> simp_all [Piece.same, line]
  exact (setLine_rear_frame _ s).join (h _) (by decide) (by decide)

theorem emptyUp_frame (s : State) : Frame [.masterFrames, .forward] s (emptyUp s) := by
  have h : ∀ t, Frame [.forward] t (mapChain (fun c => { c with up := [] }) t) := by
    intro t p hp; cases p <;> simp_all [Piece.same, line]
  exact (setLine_master_frame .front _ s).join (h _) (by decide) (by decide)

theorem joinDown_frame (f : FwdFrame) (s : State) : Frame [.forward] s (joinDown f s) := by
  unfold joinDown
  refine Frame.ite _ ?_ (Frame.refl _ _)
  intro p hp; cases p <;> simp_all [Piece.same, line]

theorem joinUp_frame (f : FwdFrame) (s : State) : Frame [.forward] s (joinUp f s) := by
  intro p hp
  cases p <;> simp_all [Piece.same, line, joinUp]
  all_goals (split <;> simp)

theorem detach_frame (m : Master) (s : State) : Frame [.masterFrames, .stations, .notice] s (detach m s) := by
  refine Frame.join (a := [.masterFrames, .stations]) ?_ (setQueue_frame _ _ _) (by decide) (by decide)
  exact (setLine_master_frame m _ s).join (setStation_frame _ _ _) (by decide) (by decide)

/-- What a change of the REAR state can change beside the UNIT record. -/
def rearPieces : List Piece := [.rear, .rearFrames, .forward]

theorem feedOff_frame (s : State) : Frame rearPieces s (feedOff s) := by
  refine Frame.join (a := [.rear]) ?_ (emptyDown_frame _) (by decide) (by decide)
  intro p hp; cases p <;> simp_all [Piece.same, line]

theorem bar_frame (b : BarCause) (s : State) : Frame [.rear] s (bar b s) := by
  intro p hp; cases p <;> simp_all [Piece.same, line, bar]

theorem senseRear_frame (s : State) : Frame [.rear] s (senseRear s) := by
  unfold senseRear
  refine Frame.ite _ ?_ (Frame.refl _ _)
  have h : Frame [.rear] s (mapChain (fun c => { c with feedTry := true, rear := .sensed }) s) := by
    intro p hp; cases p <;> simp_all [Piece.same, line]
  exact Frame.ite _ (h.trans (bar_frame _ _)) h

/-- What a change of the REAR state with its UNIT record can change. -/
def linkPieces : List Piece := .coupling :: .seqs :: .fresh :: rearPieces ++ storePieces

theorem sendAssign_frame (s : State) : Frame [.rear, .rearFrames, .fresh] s (sendAssign s) := by
  have h1 : Frame [.fresh] s { s with freshCount := s.freshCount + 1 } := by
    intro p hp; cases p <;> simp_all [Piece.same, line]
  have h2 : ∀ t, Frame [.rear] t (mapChain (fun c => { c with assignOut := true, assigned := c.own + 1 }) t) := by
    intro t p hp; cases p <;> simp_all [Piece.same, line]
  exact (h1.join (pushFrame_rear_frame _ _) (by decide) (by decide) : Frame [.fresh, .rearFrames] s _).join (h2 _)
    (by decide) (by decide)

theorem suspendFeed_frame (s : State) : Frame linkPieces s (suspendFeed s) := by
  unfold suspendFeed
  refine Frame.ite _ ?_ (Frame.refl _ _)
  refine Frame.join (a := rearPieces) ?_ (loseUnit_frame _) (by decide) (by decide)
  refine (feedOff_frame s).join (b := [.rear]) ?_ (by decide) (by decide)
  intro p hp; cases p <;> simp_all [Piece.same, line]

theorem overcurrent_frame (s : State) : Frame linkPieces s (overcurrent s) := by
  unfold overcurrent
  refine Frame.ite _ ?_ (Frame.refl _ _)
  refine Frame.join (a := rearPieces) ?_ (loseUnit_frame _) (by decide) (by decide)
  exact (feedOff_frame s).join (bar_frame _ _) (by decide) (by decide)

theorem enterFeeding_frame (s : State) : Frame [.rear] s (enterFeeding s) := by
  intro p hp; cases p <;> simp_all [Piece.same, line, enterFeeding]

theorem clearNumber_frame (s : State) : Frame [.number, .repeats, .masterFrames, .forward] s (clearNumber s) := by
  refine Frame.join (a := [.number, .repeats]) ?_ (emptyUp_frame _) (by decide) (by decide)
  intro p hp; cases p <;> simp_all [Piece.same, line]

theorem updateUnit_frame (s : State) : Frame storePieces s (updateUnit s) := by
  unfold updateUnit
  cases liveTag s .unit with
  | none => exact Frame.refl _ _
  | some t => exact updateRec_frame _ _ _ _

theorem linkNeighbour_frame (r : Report) (s : State) : Frame linkPieces s (linkNeighbour r s) := by
  refine Frame.join (a := [.rear, .rearFrames, .fresh]) ?_ (writeUnit_frame _) (by decide) (by decide)
  have h1 : Frame [.rear] s
      (mapChain (fun c => { c with helloTimer := .stopped, report := some (capReport r) }) s) := by
    intro p hp; cases p <;> simp_all [Piece.same, line]
  have h2 : ∀ t, Frame [.rear] t (mapChain (fun c => { c with rear := .linked, silence := .running }) t) := by
    intro t p hp; cases p <;> simp_all [Piece.same, line]
  exact Frame.join (a := [.rear, .rearFrames, .fresh]) (h1.join (sendAssign_frame _) (by decide) (by decide)) (h2 _)
    (by decide) (by decide)

theorem relinkNeighbour_frame (r : Report) (s : State) : Frame linkPieces s (relinkNeighbour r s) := by
  refine Frame.join (a := [.rear, .rearFrames, .fresh]) ?_ (updateUnit_frame _) (by decide) (by decide)
  have h1 : Frame [.rear] s (mapChain (fun c => { c with report := some (capReport r), silence := .running }) s) := by
    intro p hp; cases p <;> simp_all [Piece.same, line]
  exact h1.join (sendAssign_frame _) (by decide) (by decide)

theorem takeHello_frame (r : Report) (s : State) : Frame linkPieces s (takeHello r s) := by
  unfold takeHello; split
  · exact linkNeighbour_frame _ _
  · exact linkNeighbour_frame _ _
  · exact relinkNeighbour_frame _ _
  · exact Frame.refl _ _

theorem rearHeard_frame (s : State) : Frame [.rear] s (rearHeard s) := by
  unfold rearHeard
  refine Frame.ite _ ?_ (Frame.refl _ _)
  intro p hp; cases p <;> simp_all [Piece.same, line]

theorem takeAssignReply_frame (r : Result) (s : State) : Frame [.rear] s (takeAssignReply r s) := by
  unfold takeAssignReply
  refine Frame.ite _ ?_ (Frame.refl _ _)
  intro p hp; cases p <;> simp_all [Piece.same, line]

theorem takeAdjacent_frame (r : Report) (s : State) : Frame linkPieces s (takeAdjacent r s) := by
  have h1 : Frame linkPieces s (mapChain (fun c => { c with report := some (capReport r) }) s) := by
    have : Frame [.rear] s (mapChain (fun c => { c with report := some (capReport r) }) s) := by
      intro p hp; cases p <;> simp_all [Piece.same, line]
    exact this.mono (by decide)
  exact Frame.ite _ (h1.trans ((writeUnit_frame _).mono (by decide)))
    (h1.trans ((updateUnit_frame _).mono (by decide)))

theorem takeSummary_frame (src : Nat) (r : Report) (f : FwdFrame) (s : State) :
    Frame linkPieces s (takeSummary src r f s) := by
  unfold takeSummary
  refine Frame.ite _ ?_ (Frame.refl _ _)
  have h1 : Frame linkPieces s (joinUp f s) := (joinUp_frame f s).mono (by decide)
  have h2 := Frame.ite (a := linkPieces) (src = (joinUp f s).chain.own + 1) (h1.trans (takeAdjacent_frame r _)) h1
  exact Frame.ite _ (h2.trans ((sendAssign_frame _).mono (by decide))) h2

theorem passUp_frame (f : FwdFrame) (s : State) : Frame [.forward] s (passUp f s) :=
  Frame.ite _ (joinUp_frame _ _) (Frame.refl _ _)

theorem loseNeighbour_frame (s : State) : Frame (.causes :: linkPieces) s (loseNeighbour s) := by
  have h1 : Frame [.rear] s (mapChain (fun c => { c with rear := .lost, silence := .stopped }) s) := by
    intro p hp; cases p <;> simp_all [Piece.same, line]
  have h2 : ∀ t, Frame [.causes] t (mapCauses (fun c => { c with chainLost := true }) t) := by
    intro t p hp; cases p <;> simp_all [Piece.same, line, mapCauses]
  exact Frame.join (a := .rear :: storePieces) (h1.join (loseUnit_frame _) (by decide) (by decide)) (h2 _)
    (by decide) (by decide)

theorem renumberUnit_frame (s : State) : Frame storePieces s (renumberUnit s) := by
  unfold renumberUnit; split
  · exact updateRec_frame _ _ _ _
  · exact Frame.refl _ _

theorem barForNumber_frame (s : State) : Frame linkPieces s (barForNumber s) := by
  unfold barForNumber
  have h := (feedOff_frame s).trans ((bar_frame .number _).mono (by decide))
  split
  · exact (bar_frame _ _).mono (by decide)
  · exact h.mono (by decide)
  · exact h.mono (by decide)
  · exact h.join (loseUnit_frame _) (by decide) (by decide)
  · exact Frame.refl _ _

theorem renumberRear_frame (s : State) : Frame linkPieces s (renumberRear s) := by
  unfold renumberRear; split
  · exact (sendAssign_frame s).join (renumberUnit_frame _) (by decide) (by decide)
  · refine Frame.ite _ ?_ (Frame.refl _ _)
    refine Frame.mono (a := [.rear]) ?_ (by decide)
    intro p hp; cases p <;> simp_all [Piece.same, line]
  · exact Frame.refl _ _

/-- What an accepted number can change (R178). -/
def numberPieces : List Piece := .number :: .repeats :: linkPieces

theorem takeNumber_frame (n : Nat) (s : State) : Frame numberPieces s (takeNumber n s) := by
  have h1 : Frame numberPieces s (mapChain (fun c => { c with helloRepeat := .stopped }) s) := by
    refine Frame.mono (a := [.repeats]) ?_ (by decide)
    intro p hp; cases p <;> simp_all [Piece.same, line]
  have h2 : ∀ t, Frame numberPieces t (mapChain (fun c => { c with own := n }) t) := by
    intro t
    refine Frame.mono (a := [.number]) ?_ (by decide)
    intro p hp; cases p <;> simp_all [Piece.same, line]
  refine Frame.ite _ h1 (Frame.ite _ ?_ ?_)
  · exact (h1.trans (h2 _)).trans ((barForNumber_frame _).mono (by decide))
  · exact (h1.trans (h2 _)).trans ((renumberRear_frame _).mono (by decide))

theorem purgeRear_frame (s : State) : Frame [.rearFrames] s (purgeRear s) := setLine_rear_frame _ _

end Sys2Proof.Machine
end

