-- ==== Sys2Proof/Laws/Sequencers.lean ====
section
/-! SUPPORT. What the operations of the probe sequencers can change. -/

namespace Sys2Proof.Machine

/-- What the moves and stops of the sequencers can change (R87, R88, R102). -/
def stopPieces : List Piece := .source :: retryPieces

/-- What the end of a step with a result can change as well (R98). -/
def stepPieces : List Piece := .source :: resultPieces

theorem setStatus_frame (n : Fin 4) (st : SeqStatus) (s : State) : Frame [.seqs] s (setStatus n st s) :=
  setSeq_frame _ _ _

theorem releaseSource_frame (n : Fin 4) (s : State) : Frame [.source] s (releaseSource n s) := by
  unfold releaseSource
  refine Frame.ite _ ?_ (Frame.refl _ _)
  intro p hp; cases p <;> simp_all [Piece.same, line]

/-- The sequencers and the source alone. -/
def seqPieces : List Piece := [.seqs, .source]

theorem insertClassify_frame (n : Fin 4) (s : State) : Frame seqPieces s (insertClassify n s) :=
  (releaseSource_frame n s).join (setSeq_frame _ _ _) (by decide) (by decide)

theorem advance_frame (n : Fin 4) (s : State) : Frame seqPieces s (advance n s).1 := by
  have h := releaseSource_frame n s
  unfold advance; dsimp only; split
  · exact h.mono (by decide)
  · split <;> exact h.join (setSeq_frame _ _ _) (by decide) (by decide)

theorem holdResult_frame (n : Fin 4) (res : StepResult) (s : State) : Frame seqPieces s (holdResult n res s) :=
  (releaseSource_frame n s).join (setSeq_frame _ _ _) (by decide) (by decide)

theorem seqPieces_sub : ∀ p ∈ seqPieces, p ∈ stopPieces := by decide

theorem resultPieces_sub : ∀ p ∈ resultPieces, p ∈ stepPieces := by decide

theorem stopPieces_sub : ∀ p ∈ stopPieces, p ∈ stepPieces := by decide

/-- A sensor result leaves the fault states alone. -/
theorem applySensor_frame (n : Fin 4) (i : Fin 10) (r : SensorResult) (s : State) :
    Frame retryPieces s (applyResult n (.sensor i r) s).1 := storeResult_frame _ _ _

theorem reachFuel_frame (k : Nat) (n : Fin 4) (asked : Bool) (s : State) :
    Frame stopPieces s (reachFuel k n asked s) := by
  induction k generalizing asked s with
  | zero => exact Frame.refl _ _
  | succ k ih =>
    have go : ∀ t, Frame stopPieces t (if (advance n t).2 then reachFuel k n false (advance n t).1 else (advance n t).1) := by
      intro t
      have h := (advance_frame n t).mono seqPieces_sub
      exact Frame.ite _ (h.trans (ih _ _)) h
    unfold reachFuel; dsimp only; split
    · exact Frame.refl _ _
    · exact (setStatus_frame _ _ _).mono (by decide)
    · exact (setStatus_frame _ _ _).mono (by decide)
    · exact (setStatus_frame _ _ _).mono (by decide)
    · exact ((insertClassify_frame n s).mono seqPieces_sub).trans (ih _ _)
    · exact go s
    · rename_i i r _
      have h := (applySensor_frame n i r s).mono (by decide : ∀ p ∈ retryPieces, p ∈ stopPieces)
      exact Frame.ite _ (h.trans ((holdResult_frame _ _ _).mono seqPieces_sub)) (h.trans (go _))

theorem reach_frame (n : Fin 4) (asked : Bool) (s : State) : Frame stopPieces s (reach n asked s) :=
  reachFuel_frame _ _ _ _

theorem finishStep_frame (n : Fin 4) (s : State) : Frame stopPieces s (finishStep n s) := by
  have h := (advance_frame n s).mono seqPieces_sub
  exact Frame.ite _ (h.trans (reach_frame _ _ _)) h

theorem endStep_frame (n : Fin 4) (res : StepResult) (s : State) : Frame stepPieces s (endStep n res s) := by
  have h := (applyResult_frame n res s).mono resultPieces_sub
  exact Frame.ite _ (h.trans ((holdResult_frame _ _ _).mono (by decide)))
    (h.trans ((finishStep_frame _ _).mono stopPieces_sub))

theorem endVerify_frame (n : Fin 4) (ch : Fin 24) (cls : LoadClass) (s : State) :
    Frame stopPieces s (endVerify n ch cls s) :=
  Frame.ite _ (finishStep_frame _ _) (((insertClassify_frame n s).mono seqPieces_sub).trans (reach_frame _ _ _))

theorem endLit_frame (n : Fin 4) (ch : Fin 24) (cls : LoadClass) (band : Nat) (s : State) :
    Frame stepPieces s (endLit n ch cls band s) :=
  Frame.ite _ ((endVerify_frame _ _ _ _).mono stopPieces_sub) (endStep_frame _ _ _)

theorem endLitSteps_frame (ch : Fin 24) (cls : LoadClass) (band : Nat) (s : State) :
    Frame stepPieces s (endLitSteps ch cls band s) := forEach_frame (fun _ _ => endLit_frame _ _ _ _ _) _ _

theorem clearSeq_frame (n : Fin 4) (s : State) : Frame seqPieces s (clearSeq n s) :=
  (releaseSource_frame n s).join (setSeq_frame _ _ _) (by decide) (by decide)

theorem abandonIf_frame (b : Bool) (s : State) : Frame [.coupling] s (abandonIf b s) := by
  unfold abandonIf
  refine Frame.ite _ ?_ (Frame.refl _ _)
  intro p hp; cases p <;> simp_all [Piece.same, line]

theorem stopAll_frame (ns : List (Fin 4)) (s : State) : Frame stopPieces s (stopAll ns s) := by
  refine Frame.join (a := stopPieces) ?_ (abandonIf_frame _ _) (by decide) (by decide)
  exact (forEach_frame (fun n t => clearSeq_frame n t) ns s).join (withdraw_frame _ _) (by decide) (by decide)

theorem stopSeq_frame (n : Fin 4) (s : State) : Frame stopPieces s (stopSeq n s) := stopAll_frame _ _

theorem stopWhere_frame (p : Sequencer → Bool) (s : State) : Frame stopPieces s (stopWhere p s) := stopAll_frame _ _

theorem loadSeq_frame (n : Fin 4) (p : Program) (o : Origin) (s : State) : Frame stopPieces s (loadSeq n p o s) := by
  refine Frame.trans ?_ (reach_frame _ _ _)
  exact (stopSeq_frame n s).join (setSeq_frame _ _ _) (by decide) (by decide)

theorem loadVerifyCycle_frame (s : State) : Frame stopPieces s (loadVerifyCycle s) :=
  Frame.ite _ (stopSeq_frame _ _) (loadSeq_frame _ _ _ _)

theorem skipCheck_frame (o : Fin 6) (s : State) : Frame stopPieces s (skipCheck o s) := by
  unfold skipCheck; split
  · exact Frame.ite _ (finishStep_frame _ _) (Frame.refl _ _)
  · exact Frame.refl _ _

end Sys2Proof.Machine
end

