-- ==== Sys2Proof/Laws/Coupling.lean ====
section
/-! SUPPORT. What the moves of the coupling controller and the load of the active plan can change. -/

namespace Sys2Proof.Machine

theorem reconcile_frame (s : State) : Frame [.fnStatus, .causes] s (reconcile s) := by
  intro p hp; cases p <;> simp_all [Piece.same, line, reconcile]

theorem placePlan_frame (s : State) : Frame [.planActive, .causes] s (placePlan s) := by
  intro p hp; cases p <;> simp_all [Piece.same, line, placePlan, mapCauses]

theorem bindLamp_frame (t : Fin 40) (s : State) : Frame retryPieces s (bindLamp t s) := by
  unfold bindLamp; split
  · exact Frame.ite _ (releaseRec_frame _ _) ((updateRec_frame _ _ _ _).mono (by decide))
  · exact Frame.refl _ _

/-- What a load of the active plan can change (R46, R47). -/
def loadPieces : List Piece := .planActive :: .causes :: .inputs :: retryPieces

theorem loadPlan_frame (s : State) : Frame loadPieces s (loadPlan s) := by
  have h1 : Frame loadPieces s (reclassInputs s.plan.active (placePlan s)) :=
    (placePlan_frame s).join (reclassInputs_frame _ _) (by decide) (by decide)
  have h2 := h1.trans ((forEach_frame bindLamp_frame (List.finRange 40) _).mono (by decide))
  have h3 := h2.trans ((rearbitrate_frame _).mono (by decide))
  have h4 := h3.trans ((senseScan_frame _).mono (by decide))
  exact h4.trans ((judgeRuns_frame _).mono (by decide))

/-- What an entry to a battery state or to MATING can change. -/
def enterPieces : List Piece := .state :: .coupling :: .motion :: couplingPieces

theorem enterLocal_frame (s : State) : Frame enterPieces s (enterLocal s) := by
  refine Frame.join (a := [.state, .coupling, .motion]) ?_ (changeCoupling_frame _ _) (by decide) (by decide)
  intro p hp; cases p <;> simp_all [Piece.same, line]

theorem restartIdle_frame (s : State) : Frame [.idle] s (restartIdle s) := by
  intro p hp; cases p <;> simp_all [Piece.same, line, restartIdle]

theorem wake_frame (s : State) : Frame (.idle :: enterPieces) s (wake s) := by
  unfold wake
  exact Frame.ite _ ((enterLocal_frame s).join (restartIdle_frame _) (by decide) (by decide)) (Frame.refl _ _)

/-- Outside QUIET a wake changes nothing (R62). -/
theorem wake_of_not_quiet {s : State} (h : s.cc.state ≠ .quiet) : wake s = s := by simp [wake, h]

/-- What an entry to QUIET can change (R62, R77, R155). -/
def quietPieces : List Piece := .state :: .motion :: .inputs :: .claims :: stopPieces

theorem enterQuiet_frame (s : State) : Frame quietPieces s (enterQuiet s) := by
  have h1 : Frame [.state, .coupling, .motion] s (mapCc (fun c => { c with state := .quiet, motion := .parked }) s) := by
    intro p hp; cases p <;> simp_all [Piece.same, line]
  have h2 : Frame quietPieces s (changeCoupling (mapCc fun c => { c with state := .quiet, motion := .parked }) s) :=
    h1.join (changeCoupling_frame _ _) (by decide) (by decide)
  unfold enterQuiet; dsimp only
  refine Frame.trans ?_ ((stopWhere_frame _ _).mono (by decide))
  exact h2.trans ((takeSnapshot_frame _).mono (by decide))

theorem enterMating_frame (s : State) : Frame enterPieces s (enterMating s) := by
  refine Frame.join (a := [.state, .coupling, .motion]) ?_ (changeCoupling_frame _ _) (by decide) (by decide)
  intro p hp; cases p <;> simp_all [Piece.same, line]

/-- What the loading of a bring-up can change (R69). -/
theorem loadBringUp_frame (s : State) : Frame stopPieces s (loadBringUp s) := by
  have h1 : Frame stopPieces s (clearSeq 2 (clearSeq 1 (clearSeq 0 s))) := by
    refine Frame.trans ?_ ((clearSeq_frame _ _).mono (by decide))
    refine Frame.trans ?_ ((clearSeq_frame _ _).mono (by decide))
    exact (clearSeq_frame _ _).mono (by decide)
  have h2 : Frame stopPieces s (withdraw isBringUpSeq (clearSeq 2 (clearSeq 1 (clearSeq 0 s)))) :=
    h1.trans ((withdraw_frame _ _).mono (by decide))
  have h3 : ∀ t, Frame stopPieces t (mapCc (fun c => { c with bringUp := true }) t) := by
    intro t
    refine Frame.mono (a := [.coupling]) ?_ (by decide)
    intro p hp; cases p <;> simp_all [Piece.same, line]
  unfold loadBringUp; dsimp only
  refine Frame.trans ?_ (loadSeq_frame _ _ _ _)
  refine Frame.trans ?_ (loadSeq_frame _ _ _ _)
  refine Frame.trans ?_ (loadSeq_frame _ _ _ _)
  exact h2.trans (h3 _)

/-- What an entry to PROBING can change (R68). -/
def probingPieces : List Piece :=
  [.state, .claims, .fnStatus, .repeats, .masterFrames, .rear, .forward, .fresh, .planActive, .causes, .inputs] ++ stopPieces

theorem greetFront_frame (s : State) : Frame probingPieces s (greetFront s) := by
  have h1 : Frame probingPieces s (rearbitrate (placeFallback s)) :=
    (placeFallback_frame s).join (rearbitrate_frame _) (by decide) (by decide)
  have h2 : ∀ t, Frame probingPieces t (mapChain (fun c => { c with helloRepeat := .running }) t) := by
    intro t
    refine Frame.mono (a := [.repeats]) ?_ (by decide)
    intro p hp; cases p <;> simp_all [Piece.same, line]
  unfold greetFront; dsimp only
  refine Frame.ite _ ?_ h1
  refine Frame.trans ?_ (h2 _)
  refine Frame.trans ?_ ((sendHello_frame _).mono (by decide))
  exact h1.trans ((reconcile_frame _).mono (by decide))

theorem enterProbing_frame (w : ProbingFrom) (s : State) : Frame probingPieces s (enterProbing w s) := by
  have h0 : Frame probingPieces s (probingState w s) := by
    refine Frame.mono (a := [.state, .coupling, .causes]) ?_ (by decide)
    intro p hp; cases p <;> simp_all [Piece.same, line, probingState]
  have h1 : Frame probingPieces s (changeCoupling (probingState w) s) :=
    h0.trans ((changeCoupling_frame _ _).mono (by decide))
  have h5 : ∀ t, Frame probingPieces t (mapCc (fun c => { c with deadline := .running }) t) := by
    intro t
    refine Frame.mono (a := [.coupling]) ?_ (by decide)
    intro p hp; cases p <;> simp_all [Piece.same, line]
  have key : ∀ t, Frame probingPieces s t →
      Frame probingPieces s (mapCc (fun c => { c with deadline := .running }) (loadBringUp (loadPlan t))) := by
    intro t ht
    refine Frame.trans ?_ (h5 _)
    refine Frame.trans ?_ ((loadBringUp_frame _).mono (by decide))
    exact ht.trans ((loadPlan_frame _).mono (by decide))
  have done : ∀ t, Frame probingPieces s t → Frame probingPieces s (if w = .mating then greetFront t else t) :=
    fun t ht => Frame.ite _ (ht.trans (greetFront_frame _)) ht
  unfold enterProbing; dsimp only
  exact done _ (key _ (Frame.ite _ (h1.trans ((suspendFeed_frame _).mono (by decide))) h1))

/-- What the completion of a bring-up can change (R72). -/
def completePieces : List Piece := .state :: .claims :: .causes :: .rear :: stopPieces

theorem completeBringUp_frame (s : State) : Frame completePieces s (completeBringUp s) := by
  have h1 : Frame completePieces s (mapCc (completedCc s.plan.active.ident) s) := by
    refine Frame.mono (a := [.coupling, .causes]) ?_ (by decide)
    intro p hp; cases p <;> simp_all [Piece.same, line, completedCc]
  have h4 : Frame completePieces s
      (clearSeq 2 (loadSeq 1 cycleMeasure .cycle (loadVerifyCycle (mapCc (completedCc s.plan.active.ident) s)))) := by
    refine Frame.trans ?_ ((clearSeq_frame _ _).mono (by decide))
    refine Frame.trans ?_ ((loadSeq_frame _ _ _ _).mono (by decide))
    exact h1.trans ((loadVerifyCycle_frame _).mono (by decide))
  have h5 : ∀ t, Frame completePieces t
      (changeCoupling (mapCc fun c => { c with state := .serving, deadline := .stopped }) t) := by
    intro t
    refine Frame.join (a := [.state, .coupling]) ?_ (changeCoupling_frame _ _) (by decide) (by decide)
    intro p hp; cases p <;> simp_all [Piece.same, line]
  have h6 : ∀ t, Frame completePieces t
      (mapCc (fun c => { c with reprobe := false }) (mapChain (fun c => { c with feedTry := true }) t)) := by
    intro t
    refine Frame.mono (a := [.coupling, .rear]) ?_ (by decide)
    intro p hp; cases p <;> simp_all [Piece.same, line]
  have done : ∀ t, Frame completePieces s t → Frame completePieces s
      (if t.cc.reprobe then
        mapCc (fun c => { c with reprobe := false }) (mapChain (fun c => { c with feedTry := true }) t)
      else t) := fun t ht => Frame.ite _ (ht.trans (h6 _)) ht
  have served : ∀ t, Frame completePieces s t → Frame completePieces s
      (if t.cc.state = .probing then
        changeCoupling (mapCc fun c => { c with state := .serving, deadline := .stopped }) t
      else t) := fun t ht => Frame.ite _ (ht.trans (h5 _)) ht
  unfold completeBringUp; dsimp only
  exact done _ (served _ h4)

theorem noteNoRoom_frame (s : State) : Frame [.coupling, .causes] s (noteNoRoom s) := by
  unfold noteNoRoom
  refine Frame.ite _ ?_ (Frame.refl _ _)
  intro p hp; cases p <;> simp_all [Piece.same, line]

end Sys2Proof.Machine
end

