-- ==== Sys2Proof/Laws/Events.lean ====
section
/-! SUPPORT. What the reactions and the end of an event can change, and how a request that is taken is run. -/

namespace Sys2Proof.Machine

/-! ## Reactions -/

/-- What the reactions of an event can change. -/
def reactPieces : List Piece := [.state, .claims, .causes, .motion, .inputs, .rear] ++ stopPieces

theorem grantTo_frame (n : Fin 4) (s : State) : Frame seqPieces s (grantTo n s) := by
  refine Frame.join (a := [.source]) ?_ (setStatus_frame _ _ _) (by decide) (by decide)
  intro p hp; cases p <;> simp_all [Piece.same, line]

theorem runReaction_frame (r : Reaction) (s : State) : Frame reactPieces s (runReaction r s) := by
  cases r with
  | storeDone n => exact (finishStep_frame _ _).mono (by decide)
  | relit n => exact (reach_frame _ _ _).mono (by decide)
  | convert n => exact (releaseSource_frame n s).join (setStatus_frame _ _ _) (by decide) (by decide)
  | skipCheck n => exact (finishStep_frame _ _).mono (by decide)
  | gateCloses n => exact (setStatus_frame _ _ _).mono (by decide)
  | gateOpens n => exact (reach_frame _ _ _).mono (by decide)
  | grant n => exact (grantTo_frame _ _).mono (by decide)
  | complete => exact (completeBringUp_frame _).mono (by decide)
  | quiet => exact (enterQuiet_frame _).mono (by decide)
  | feed => exact (enterFeeding_frame _).mono (by decide)

/-- The reactions of an event change nothing outside `reactPieces`. -/
theorem react_frame (k : Nat) (s : State) : Frame reactPieces s (react k s) := by
  induction k generalizing s with
  | zero => exact Frame.refl _ _
  | succ k ih =>
    unfold react; split
    · exact Frame.refl _ _
    · exact (runReaction_frame _ s).watched.trans (ih _)

/-- A property that every reaction keeps, and that does not read the marks of the event, the reactions of an event keep. -/
theorem react_induct {P : State → Prop} (h : ∀ r s, P s → nextReaction s = some r → P (runReaction r s))
    (w : ∀ s t, P t → P (watched s t)) (k : Nat) (s : State) (hs : P s) : P (react k s) := by
  induction k generalizing s with
  | zero => exact hs
  | succ k ih =>
    unfold react; split
    · exact hs
    · rename_i r hr; exact ih _ (w _ _ (h r s hs hr))

/-- Nothing happens after an effect that leaves no block with a reaction. -/
theorem react_of_none {s : State} (h : nextReaction s = none) (k : Nat) : react k s = s := by
  cases k with
  | zero => rfl
  | succ k => unfold react; rw [h]

/-! ## The end of an event -/

theorem noticeCheck_frame (m : Master) (s : State) : Frame [.notice, .masterFrames] s (noticeCheck m s) := by
  unfold noticeCheck
  exact Frame.ite _ ((pushFrame_master_frame m _ s).join (setQueue_frame _ _ _) (by decide) (by decide))
    (Frame.refl _ _)

theorem offerTo_frame (e : NoticeEntry) (m : Master) (s : State) : Frame [.notice, .masterFrames] s (offerTo e m s) :=
  (setQueue_frame _ _ _).join (noticeCheck_frame _ _) (by decide) (by decide)

theorem offer_frame (e : NoticeEntry) (s : State) : Frame [.notice, .masterFrames] s (offer e s) :=
  ((offerTo_frame _ _ _).trans (offerTo_frame _ _ _)).trans (offerTo_frame _ _ _)

theorem offerHanded_frame (s : State) : Frame [.notice, .masterFrames] s (offerHanded s) :=
  forEach_frame (fun _ _ => offer_frame _ _) _ _

theorem offerStatus_frame (old s : State) : Frame [.notice, .masterFrames] s (offerStatus old s) :=
  Frame.ite _ (offer_frame _ _) (Frame.refl _ _)

/-- What the end of an event can change. -/
def settlePieces : List Piece := [.notice, .masterFrames, .rearFrames, .repeats, .fnStatus, .causes, .handed]

/-- The end of an event changes nothing outside `settlePieces`. -/
theorem settle_frame (old s : State) : Frame settlePieces s (settle old s) := by
  have h1 : Frame settlePieces s (offerStatus old (offerHanded (reconcile (purgeRear s)))) := by
    refine Frame.trans ?_ ((offerStatus_frame _ _).mono (by decide))
    refine Frame.trans ?_ ((offerHanded_frame _).mono (by decide))
    exact (purgeRear_frame s).join (reconcile_frame _) (by decide) (by decide)
  have h2 : ∀ t, Frame settlePieces s t → Frame settlePieces s (forEach masters noticeCheck t) := fun t ht =>
    ht.trans (forEach_frame (fun m u => (noticeCheck_frame m u).mono (by decide)) _ _)
  have h3 : ∀ t, Frame settlePieces s t → Frame settlePieces s (if summaryDue old t then sendSummary t else t) :=
    fun t ht => Frame.ite _ (ht.trans ((sendSummary_frame _).mono (by decide))) ht
  have h4 : ∀ t, Frame settlePieces t { t with work := ⟨[], false, false, false⟩ } := by
    intro t
    refine Frame.mono (a := [.handed]) ?_ (by decide)
    intro p hp; cases p <;> simp_all [Piece.same, line]
  unfold settle; dsimp only
  exact (h3 _ (h2 _ h1)).trans (h4 _)

/-! ## Frames waiting on the master lines -/

/-- The frames waiting on the master lines stay, and more may join them. -/
def KeepsWaiting (s t : State) : Prop :=
  ∀ m : Master, (line s (masterPort m)).waiting.IsPrefix (line t (masterPort m)).waiting

theorem KeepsWaiting.refl (s : State) : KeepsWaiting s s := fun _ => List.prefix_refl _

theorem KeepsWaiting.trans {s t u : State} (h : KeepsWaiting s t) (k : KeepsWaiting t u) : KeepsWaiting s u :=
  fun m => (h m).trans (k m)

theorem KeepsWaiting.ofFrame {a : List Piece} {s t : State} (h : Frame a s t) (ha : Piece.masterFrames ∉ a) :
    KeepsWaiting s t := fun m => by
  have same := h .masterFrames ha m
  exact ⟨[], by rw [same, List.append_nil]⟩

theorem pushFrame_keepsWaiting (p : Port) (f : OutFrame) (s : State) : KeepsWaiting s (pushFrame p f s) := by
  intro m
  unfold pushFrame
  rw [line_setLine]
  split
  · next h => subst h; exact List.prefix_append _ _
  · exact List.prefix_refl _

theorem noticeCheck_keepsWaiting (m : Master) (s : State) : KeepsWaiting s (noticeCheck m s) := by
  unfold noticeCheck; split
  · exact (pushFrame_keepsWaiting _ _ s).trans (KeepsWaiting.ofFrame (setQueue_frame _ _ _) (by decide))
  · exact KeepsWaiting.refl _

theorem offerTo_keepsWaiting (e : NoticeEntry) (m : Master) (s : State) : KeepsWaiting s (offerTo e m s) :=
  (KeepsWaiting.ofFrame (setQueue_frame _ _ _) (by decide)).trans (noticeCheck_keepsWaiting _ _)

theorem offer_keepsWaiting (e : NoticeEntry) (s : State) : KeepsWaiting s (offer e s) :=
  ((offerTo_keepsWaiting _ _ _).trans (offerTo_keepsWaiting _ _ _)).trans (offerTo_keepsWaiting _ _ _)

theorem forEach_keepsWaiting {α : Type} {f : α → State → State} (h : ∀ x s, KeepsWaiting s (f x s)) (xs : List α)
    (s : State) : KeepsWaiting s (forEach xs f s) := by
  induction xs generalizing s with
  | nil => exact KeepsWaiting.refl s
  | cons x xs ih => exact (h x s).trans (ih (f x s))

theorem sendSummary_keepsWaiting (s : State) : KeepsWaiting s (sendSummary s) := by
  have h : ∀ t, Frame [.repeats] t (mapChain (fun c => { c with summaryRepeat := .running }) t) := by
    intro t p hp; cases p <;> simp_all [Piece.same, line]
  unfold sendSummary
  exact (pushFrame_keepsWaiting _ _ s).trans (KeepsWaiting.ofFrame (h _) (by decide))

/-- The end of an event only adds to the frames waiting on the master lines. -/
theorem settle_keepsWaiting (old s : State) : KeepsWaiting s (settle old s) := by
  have h1 : KeepsWaiting s (reconcile (purgeRear s)) := by
    have k := (purgeRear_frame s).join (c := settlePieces.erase .masterFrames) (reconcile_frame (purgeRear s))
      (by decide) (by decide)
    exact KeepsWaiting.ofFrame k (by decide)
  have h2 : ∀ t, KeepsWaiting s t → KeepsWaiting s (offerHanded t) := fun t ht =>
    ht.trans (forEach_keepsWaiting (fun _ _ => offer_keepsWaiting _ _) _ _)
  have h3 : ∀ t, KeepsWaiting s t → KeepsWaiting s (offerStatus old t) := fun t ht => by
    unfold offerStatus; split
    · exact ht.trans (offer_keepsWaiting _ _)
    · exact ht
  have h4 : ∀ t, KeepsWaiting s t → KeepsWaiting s (forEach masters noticeCheck t) := fun t ht =>
    ht.trans (forEach_keepsWaiting (fun _ _ => noticeCheck_keepsWaiting _ _) _ _)
  have h5 : ∀ t, KeepsWaiting s t → KeepsWaiting s (if summaryDue old t then sendSummary t else t) := fun t ht => by
    split
    · exact ht.trans (sendSummary_keepsWaiting t)
    · exact ht
  have h6 : ∀ t, KeepsWaiting s t → KeepsWaiting s { t with work := ⟨[], false, false, false⟩ } := fun t ht => ht
  unfold settle; dsimp only
  exact h6 _ (h5 _ (h4 _ (h3 _ (h2 _ h1))))

/-- The reactions make no frame for a master. -/
theorem react_keepsWaiting (k : Nat) (s : State) : KeepsWaiting s (react k s) :=
  KeepsWaiting.ofFrame (react_frame k s) (by decide)

/-! ## A whole event -/

/-- An event of a powered part: its own effect, the reactions, and its end. -/
theorem event_powered {s : State} (h : s.powered = true) (f : State → State) :
    event f s = settle s (react Config.reactFuel (f s)) := by simp [event, h]

/-- An unpowered part takes no event (R60). -/
theorem event_unpowered {s : State} (h : s.powered = false) (f : State → State) : event f s = s := by
  simp [event, h]

/-- A piece that neither the reactions nor the end of an event can change is as the event's own effect left it. -/
theorem event_piece {s : State} (h : s.powered = true) (f : State → State) (p : Piece)
    (hr : p ∉ reactPieces) (hs : p ∉ settlePieces) : Piece.same (f s) (event f s) p := by
  rw [event_powered h]
  exact Piece.same_trans (react_frame _ _ p hr) (settle_frame _ _ p hs)

/-! ## Requests -/

theorem frameJudged_master_frame (m : Master) (s : State) : Frame [.masterFrames] s (frameJudged (masterPort m) s) :=
  setLine_master_frame _ _ _

theorem frameJudged_rear_frame (s : State) : Frame [.rearFrames] s (frameJudged .rear s) := setLine_rear_frame _ _

@[simp] theorem station_frameJudged (p : Port) (m : Master) (s : State) :
    station (frameJudged p s) m = station s m := rfl

@[simp] theorem frontDeaf_frameJudged (p : Port) (s : State) : frontDeaf (frameJudged p s) = frontDeaf s := rfl

@[simp] theorem powered_frameJudged (p : Port) (s : State) : (frameJudged p s).powered = s.powered := rfl

/-- A judged frame leaves its port's buffer empty, and every other line as it was. -/
theorem line_frameJudged (p q : Port) (s : State) :
    line (frameJudged p s) q = if q = p then { line s p with rx := [], collided := false } else line s q :=
  line_setLine _ _ _ _

theorem station_portHeard (m k : Master) (s : State) :
    station (portHeard m s) k =
      if k = m then { station s m with attached := true, silence := .running } else station s k := by
  cases m <;> cases k <;> simp [portHeard, station, setStation, restartIdle, mapCc, masterIx]

theorem station_wake (m : Master) (s : State) : station (wake s) m = station s m := by
  have h := wake_frame s .stations (by decide)
  simp only [Piece.same] at h
  simp [station, h]

theorem station_heard (m : Master) (s : State) :
    station (heard m s) m = { station s m with attached := true, silence := .running } := by
  cases m <;> simp [heard, station_portHeard, station_wake]

theorem passDown_frame (h : ReqHdr) (f : FwdFrame) (b : Bool) (s : State) : Frame [.forward] s (passDown h f b s) :=
  Frame.ite _ (joinDown_frame _ _) (Frame.refl _ _)

theorem station_arrived (h : ReqHdr) (c : Instr) (s : State) :
    station (arrived h c s) h.station = { station s h.station with attached := true, silence := .running } := by
  have k := passDown_frame h (.command c) (h.broadcast || alwaysForwarded c) (heard h.station s) .stations (by decide)
  simp only [Piece.same] at k
  rw [← station_heard]
  simp [station, arrived, k]

/-- Where a master's frame is taken in, what follows acts on the part that has heard it. -/
theorem arrive_of_reaches {h : ReqHdr} {s : State} (hr : Reaches h s) (k : State → State) :
    arrive h.station k (frameJudged (masterPort h.station) s) = k (heard h.station s) := by
  obtain ⟨_, hd⟩ := hr
  cases e : h.station with
  | front => simp [arrive, heard, hd e, masterPort]
  | chassis => rfl
  | service => rfl

/-- A request whose frame is taken in is one event from the part that has heard it. -/
theorem requestEvent_reaches {h : ReqHdr} {s : State} (hr : Reaches h s) (c : Instr) (allowed : List Master)
    (body : State → State) :
    requestEvent h c allowed (alwaysForwarded c) body s =
      settle s (react Config.reactFuel (takeRequest h allowed body (arrived h c s))) := by
  unfold requestEvent
  rw [event_powered hr.1, arrive_of_reaches hr]
  rfl

/-- A request that is taken acts by its own rule on the part as it meets it. -/
theorem requestEvent_taken {h : ReqHdr} {allowed : List Master} {s : State} (ht : Taken h allowed s) (c : Instr)
    (body : State → State) :
    requestEvent h c allowed (alwaysForwarded c) body s =
      settle s (react Config.reactFuel (body (met h c s))) := by
  obtain ⟨hr, ha, ho⟩ := ht
  rw [requestEvent_reaches hr]
  congr 2
  unfold takeRequest met
  cases hb : h.broadcast with
  | true => simp [ha]
  | false => simp [ha, station_arrived, ho hb]

/-! ## Replies -/

/-- A reply made on a part whose master lines are those of `w`. -/
theorem answered_replyWith {h : ReqHdr} {r : Result} {b : Body} {w v : State}
    (hl : ∀ m : Master, line v (masterPort m) = line w (masterPort m)) :
    Answered true h r b w (replyWith h r b v) := by
  intro m
  unfold replyWith
  cases hb : h.broadcast with
  | true => simp [hl]
  | false =>
    by_cases hm : m = h.station
    · subst hm; simp [pushFrame, line_setLine, replyFrame, hl]
    · simp [pushFrame, line_setLine, hm, hl]

/-- A reply given before step 5 of R188. -/
theorem answered_refuseEarly {h : ReqHdr} {r : Result} {w v : State}
    (hl : ∀ m : Master, line v (masterPort m) = line w (masterPort m)) :
    Answered false h r .empty w (refuseEarly h r v) := by
  intro m
  unfold refuseEarly
  cases hb : h.broadcast with
  | true => simp [hl]
  | false =>
    by_cases hm : m = h.station
    · subst hm; simp [pushFrame, line_setLine, replyFrame, hl]
    · simp [pushFrame, line_setLine, hm, hl]

end Sys2Proof.Machine
end

