-- ==== Sys2Proof/Laws/Arbiter.lean ====
section
/-! SUPPORT. When a state is arbitrated: a new resolution makes it so, and what reads the same to the arbiter keeps
it so. -/

namespace Sys2Proof.Machine

/-! ## Expected bands -/

/-- The expected band that contents give a channel. -/
def bandIn (c : Content) (ch : Fin 24) : Option Nat :=
  match c with
  | .lamp k r => if k = ch then some r.expected else none
  | _ => none

/-- The expected band that a tag place gives a channel. -/
def bandAt (p : Option Record) (ch : Fin 24) : Option Nat := p.bind fun r => bandIn r.content ch

/-- Every tag place gives every channel the same expected band in both states. -/
def SameBands (s t : State) : Prop :=
  ∀ (k : Fin 40) (ch : Fin 24), bandAt t.store.records[k] ch = bandAt s.store.records[k] ch

theorem SameBands.refl (s : State) : SameBands s s := fun _ _ => rfl

theorem SameBands.trans {s t u : State} (h : SameBands s t) (k : SameBands t u) : SameBands s u :=
  fun p ch => (k p ch).trans (h p ch)

theorem SameBands.ofFrame {a : List Piece} {s t : State} (h : Frame a s t) (ha : Piece.store ∉ a) : SameBands s t := by
  intro k ch
  have e := h .store ha
  simp only [Piece.same] at e
  rw [e]

theorem SameBands.ite {s t u : State} (c : Prop) [Decidable c] (h : SameBands s t) (k : SameBands s u) :
    SameBands s (if c then t else u) := by split <;> assumption

theorem forEach_sameBands {α : Type} {f : α → State → State} (h : ∀ x s, SameBands s (f x s)) (xs : List α)
    (s : State) : SameBands s (forEach xs f s) := by
  induction xs generalizing s with
  | nil => exact SameBands.refl s
  | cons x xs ih => exact (h x s).trans (ih (f x s))

/-- The first element that meets a test, looked into. -/
theorem find_bind {α β : Type} (p : α → Bool) (g : α → Option β) (h : ∀ x, p x = (g x).isSome) (l : List α) :
    (l.find? p).bind g = l.findSome? g := by
  induction l with
  | nil => rfl
  | cons x xs ih =>
    simp only [List.find?_cons, List.findSome?_cons, h x]
    cases hg : g x <;> simp [hg, ih]

/-- The band counted for a channel is read from the tag places. -/
theorem countedBand_eq (s : State) (ch : Fin 24) :
    countedBand s ch =
      ((List.finRange 40).findSome? fun k => bandAt s.store.records[k] ch).getD Config.unrecordedBand := by
  rw [← find_bind (fun t => match s.store.records[t] with
    | some r => decide (r.content.subject = .lamp ch)
    | none => false)]
  · unfold countedBand lampRecord liveRecord liveTag
    cases hf : (List.finRange 40).find? fun t => match s.store.records[t] with
      | some r => decide (r.content.subject = .lamp ch)
      | none => false with
    | none => simp
    | some t =>
      have ht := List.find?_some hf
      cases hr : s.store.records[t] with
      | none => simp [hr] at ht
      | some r =>
        obtain ⟨g, c⟩ := r
        cases c <;> simp_all [Content.subject, bandAt, bandIn]
  · intro k
    cases hr : s.store.records[k] with
    | none => simp [bandAt]
    | some r =>
      obtain ⟨g, c⟩ := r
      cases c <;> simp [Content.subject, bandAt, bandIn, apply_ite Option.isSome]

theorem countedBand_congr {s t : State} (h : SameBands s t) (ch : Fin 24) : countedBand t ch = countedBand s ch := by
  simp only [countedBand_eq, h _ ch]

/-! ## What the arbiter reads -/

/-- Both states read the same to the resolution and to the filters. -/
structure SameRes (s t : State) : Prop where
  hold : holdEffective t = holdEffective s
  stop : stopForceEffect t = stopForceEffect s
  budget : budget t = budget s
  lamps : t.plan.active.lamps = s.plan.active.lamps
  claims : t.arb.claims = s.arb.claims
  resolved : t.arb.resolved = s.arb.resolved
  shed : t.arb.shed = s.arb.shed
  bands : SameBands s t
  faults : ∀ ch : Fin 24, t.lamp.channels[ch].fault = s.lamp.channels[ch].fault

theorem SameRes.refl (s : State) : SameRes s s :=
  ⟨rfl, rfl, rfl, rfl, rfl, rfl, rfl, SameBands.refl s, fun _ => rfl⟩

theorem SameRes.trans {s t u : State} (h : SameRes s t) (k : SameRes t u) : SameRes s u where
  hold := k.hold.trans h.hold
  stop := k.stop.trans h.stop
  budget := k.budget.trans h.budget
  lamps := k.lamps.trans h.lamps
  claims := k.claims.trans h.claims
  resolved := k.resolved.trans h.resolved
  shed := k.shed.trans h.shed
  bands := h.bands.trans k.bands
  faults ch := (k.faults ch).trans (h.faults ch)

/-- The pieces the resolution and the filters read beside the store. -/
def resPieces : List Piece := [.lines, .state, .motion, .planActive, .claims, .resolution, .faults, .lampFlags]

/-- A frame that leaves alone what the resolution reads, the bands being the same. -/
theorem SameRes.ofBands {a : List Piece} {s t : State} (h : Frame a s t) (ha : ∀ p ∈ resPieces, p ∉ a)
    (hb : SameBands s t) : SameRes s t := by
  have h1 := h .lines (ha _ (by decide))
  have h2 := h .state (ha _ (by decide))
  have h3 := h .motion (ha _ (by decide))
  have h4 := h .planActive (ha _ (by decide))
  have h5 := h .claims (ha _ (by decide))
  have h6 := h .resolution (ha _ (by decide))
  have h8 := h .faults (ha _ (by decide))
  have h9 := h .lampFlags (ha _ (by decide))
  simp only [Piece.same] at h1 h2 h3 h4 h5 h6 h8 h9
  refine ⟨?_, ?_, ?_, by rw [h4], h5, h6.1, h6.2, hb, fun ch => (h8 ch).1⟩
  · simp [holdEffective, parked, h1, h2, h3]
  · simp [stopForceEffect, h1]
  · simp only [Machine.budget, coupled, h2, h9.1, h9.2]; rfl

/-- Both states read the same to the arbiter and to the lamps' drive. -/
structure SameArb (s t : State) : Prop extends SameRes s t where
  timebase : t.lamp.timebase = s.lamp.timebase
  channels : ∀ ch : Fin 24,
    t.lamp.channels[ch].command = s.lamp.channels[ch].command ∧
      t.lamp.channels[ch].driven = s.lamp.channels[ch].driven

theorem SameArb.refl (s : State) : SameArb s s := ⟨SameRes.refl s, rfl, fun _ => ⟨rfl, rfl⟩⟩

theorem SameArb.trans {s t u : State} (h : SameArb s t) (k : SameArb t u) : SameArb s u :=
  ⟨h.toSameRes.trans k.toSameRes, k.timebase.trans h.timebase, fun ch =>
    ⟨(k.channels ch).1.trans (h.channels ch).1, (k.channels ch).2.trans (h.channels ch).2⟩⟩

/-- The pieces the arbiter and the lamps' drive read beside the store. -/
def arbPieces : List Piece := .drive :: resPieces

/-- A frame that leaves alone what the arbiter reads, the bands being the same. -/
theorem SameArb.ofBands {a : List Piece} {s t : State} (h : Frame a s t) (ha : ∀ p ∈ arbPieces, p ∉ a)
    (hb : SameBands s t) : SameArb s t := by
  have h7 := h .drive (ha _ (by decide))
  simp only [Piece.same] at h7
  refine ⟨SameRes.ofBands h (fun p hp => ha p (List.mem_cons_of_mem _ hp)) hb, h7.2.1, fun ch => ?_⟩
  have d := h7.1 ch
  simp only [driveOf, Prod.mk.injEq] at d
  exact ⟨d.1, d.2.1⟩

/-- A frame that leaves alone what the arbiter reads, the store among it. -/
theorem SameArb.ofFrame {a : List Piece} {s t : State} (h : Frame a s t) (ha : ∀ p ∈ arbPieces, p ∉ a)
    (hs : Piece.store ∉ a) : SameArb s t := SameArb.ofBands h ha (SameBands.ofFrame h hs)

theorem SameArb.ite {s t u : State} (c : Prop) [Decidable c] (h : SameArb s t) (k : SameArb s u) :
    SameArb s (if c then t else u) := by split <;> assumption

theorem forEach_sameArb {α : Type} {f : α → State → State} (h : ∀ x s, SameArb s (f x s)) (xs : List α)
    (s : State) : SameArb s (forEach xs f s) := by
  induction xs generalizing s with
  | nil => exact SameArb.refl s
  | cons x xs ih => exact (h x s).trans (ih (f x s))

/-- The coupling controller changed with its state and motion kept. -/
theorem mapCc_sameArb (f : Coupling → Coupling) (s : State) (h : ∀ c, (f c).state = c.state)
    (k : ∀ c, (f c).motion = c.motion) : SameArb s (mapCc f s) := by
  refine ⟨⟨?_, ?_, ?_, rfl, rfl, rfl, rfl, fun _ _ => rfl, fun _ => rfl⟩, rfl, fun _ => ⟨rfl, rfl⟩⟩
  · simp [holdEffective, parked, h, k]
  · simp [stopForceEffect]
  · simp only [Machine.budget, coupled, mapCc_cc, mapCc_lamp, h]; rfl

/-- A channel written with its command, its drive and its fault state as before. -/
theorem setChannel_sameArb (ch : Fin 24) (x : LampChannel) (s : State)
    (hc : x.command = s.lamp.channels[ch].command) (hd : x.driven = s.lamp.channels[ch].driven)
    (hf : x.fault = s.lamp.channels[ch].fault) : SameArb s (setChannel ch x s) := by
  have key : ∀ k : Fin 24,
      (setChannel ch x s).lamp.channels[k] = if ch = k then x else s.lamp.channels[k] := by
    intro k
    by_cases h : ch = k
    · subst h; simp
    · have : ch.val ≠ k.val := fun e => h (Fin.ext e)
      simp [h, Vector.getElem_set_ne _ _ this]
  refine ⟨⟨rfl, rfl, rfl, rfl, rfl, rfl, rfl, fun _ _ => rfl, fun k => ?_⟩, rfl, fun k => ?_⟩ <;>
  · rw [key]; split
    · next h => subst h; simp [hc, hd, hf]
    · simp

theorem resetCounts_sameArb (ch : Fin 24) (s : State) : SameArb s (resetCounts ch s) :=
  setChannel_sameArb _ _ _ rfl rfl rfl

/-! ## Resolution and filters -/

theorem resolve_congr {s t : State} (h : SameRes s t) (ch : Fin 24) : resolve t ch = resolve s ch := by
  have hb : bindingCandidates t = bindingCandidates s := by
    funext b
    simp only [bindingCandidates, isHeld, h.hold, h.stop, claimAt, h.claims]; rfl
  simp only [resolve, candidates, hb, h.lamps]

theorem withheld_congr {s t : State} (h : SameRes s t) : withheld t = withheld s := by
  funext ch; simp only [withheld, h.faults]

theorem channelCurrent_congr {s t : State} (h : SameRes s t) : channelCurrent t = channelCurrent s := by
  funext ch
  simp only [channelCurrent, expectedCurrent, withheld_congr h, countedBand_congr h.bands, h.resolved]

theorem admission_congr {s t : State} (h : SameRes s t) : admission t = admission s := by
  have h1 : admitOne t = admitOne s := by
    funext a ch; simp only [admitOne, withheld_congr h, channelCurrent_congr h, h.budget]
  simp only [admission, h1, firstTotal, channelsOfClass, channelCurrent_congr h, h.resolved]

theorem filteredCmd_congr {s t : State} (h : SameRes s t) (ch : Fin 24) : filteredCmd t ch = filteredCmd s ch := by
  simp only [filteredCmd, withheld_congr h, h.resolved, h.shed]

theorem anyFlash_congr {s t : State} (h : ∀ ch : Fin 24, t.lamp.channels[ch].command = s.lamp.channels[ch].command) :
    anyFlash t = anyFlash s := by simp only [anyFlash, h]

/-- A state whose resolution, shedding and commands are those of one that reads the same, and whose drive follows
them, is arbitrated. -/
theorem arbitrated_of {s t : State} (h : SameRes s t) (hr : ∀ ch : Fin 24, s.arb.resolved[ch] = resolve s ch)
    (hs : ∀ ch : Fin 24, s.arb.shed[ch] = (admission s).2.contains ch)
    (hc : ∀ ch : Fin 24, t.lamp.channels[ch].command = filteredCmd s ch)
    (hd : ∀ ch : Fin 24, t.lamp.channels[ch].driven = driveCondition t.lamp.timebase t.lamp.channels[ch])
    (ht : t.lamp.timebase = .stopped ↔ anyFlash t = false) : Arbitrated t := by
  refine ⟨fun ch => ?_, fun ch => ?_, fun ch => ?_, hd, ht⟩
  · rw [resolve_congr h, h.resolved]; exact hr ch
  · rw [admission_congr h, h.shed]; exact hs ch
  · rw [filteredCmd_congr h]; exact hc ch

/-- What reads the same to the arbiter is arbitrated when the other is. -/
theorem Arbitrated.congr {s t : State} (a : Arbitrated s) (h : SameArb s t) : Arbitrated t := by
  obtain ⟨a1, a2, a3, a4, a5⟩ := a
  refine arbitrated_of h.toSameRes a1 a2 (fun ch => ?_) (fun ch => ?_) ?_
  · rw [(h.channels ch).1]; exact a3 ch
  · rw [(h.channels ch).2, h.timebase, a4 ch]
    simp only [driveCondition, (h.channels ch).1, h.faults ch]
  · rw [h.timebase, a5, anyFlash_congr fun ch => (h.channels ch).1]

/-! ## A new resolution -/

theorem refreshChannel_driven (tb : Timebase) (c : LampChannel) :
    (refreshChannel tb c).driven = driveCondition tb (refreshChannel tb c) := by
  unfold refreshChannel; dsimp only; split
  · next h => exact h.symm
  · rfl

theorem refreshDriven_channel (s : State) (ch : Fin 24) :
    (refreshDriven s).lamp.channels[ch] = refreshChannel s.lamp.timebase s.lamp.channels[ch] := by
  simp [refreshDriven]

theorem refreshDriven_timebase (s : State) : (refreshDriven s).lamp.timebase = s.lamp.timebase := by
  unfold refreshDriven; dsimp only

/-- Once the lamp block has refreshed its drive, every channel follows its condition (R130). -/
theorem refreshDriven_driven (s : State) (ch : Fin 24) :
    (refreshDriven s).lamp.channels[ch].driven =
      driveCondition (refreshDriven s).lamp.timebase (refreshDriven s).lamp.channels[ch] := by
  rw [refreshDriven_channel, refreshDriven_timebase]
  exact refreshChannel_driven s.lamp.timebase s.lamp.channels[ch]

theorem refreshDriven_command (s : State) (ch : Fin 24) :
    (refreshDriven s).lamp.channels[ch].command = s.lamp.channels[ch].command := by
  rw [refreshDriven_channel]; exact (driveOf_refresh _ _).2.2

theorem refreshDriven_sameRes (s : State) : SameRes s (refreshDriven s) :=
  SameRes.ofBands (refreshDriven_frame s) (by decide) (SameBands.ofFrame (refreshDriven_frame s) (by decide))

theorem setTimebase_sameRes (tb : Timebase) (k : Timer) (s : State) : SameRes s (setTimebase tb k s) :=
  SameRes.ofBands (setTimebase_frame tb k s) (by decide) (SameBands.ofFrame (setTimebase_frame tb k s) (by decide))

theorem setTimebase_channels (tb : Timebase) (k : Timer) (s : State) :
    (setTimebase tb k s).lamp.channels = s.lamp.channels := rfl

/-- A change of the timebase between ON and OFF, or its restart, keeps what was arbitrated (R132, R134). -/
theorem arbitrated_setTimebase {s : State} (a : Arbitrated s) (tb : Timebase) (k : Timer)
    (ht : tb = .stopped ↔ s.lamp.timebase = .stopped) : Arbitrated (refreshDriven (setTimebase tb k s)) := by
  obtain ⟨a1, a2, a3, _, a5⟩ := a
  have hc : ∀ ch : Fin 24,
      (refreshDriven (setTimebase tb k s)).lamp.channels[ch].command = s.lamp.channels[ch].command :=
    fun ch => by rw [refreshDriven_command, setTimebase_channels]
  have h : SameRes s (refreshDriven (setTimebase tb k s)) :=
    (setTimebase_sameRes tb k s).trans (refreshDriven_sameRes _)
  refine arbitrated_of (s := s) h a1 a2 (fun ch => (hc ch).trans (a3 ch)) (refreshDriven_driven _) ?_
  rw [anyFlash_congr hc, ← a5]
  exact ht

theorem refreshTimebase_timebase (s : State) :
    (refreshTimebase s).lamp.timebase = .stopped ↔ anyFlash s = false := by
  unfold refreshTimebase; split
  · next h =>
    split
    · have : (if (setTimebase .on .running s).chain.rear = .linked then sendPhase (setTimebase .on .running s)
          else setTimebase .on .running s).lamp.timebase = .on := by split <;> rfl
      simp only [this, h]; decide
    · next k => simp only [k, h]; decide
  · next h => simpa [setTimebase] using h

theorem refreshTimebase_channels (s : State) : (refreshTimebase s).lamp.channels = s.lamp.channels := by
  unfold refreshTimebase; split
  · split
    · dsimp only; split <;> rfl
    · rfl
  · rfl

/-- Resolution does not read its own outcome. -/
theorem resolve_outcome (s : State) (r : Vector Resolved 24) (x : Vector Bool 24) (ch : Fin 24) :
    resolve { s with arb := { s.arb with resolved := r, shed := x } } ch = resolve s ch := rfl

/-- The budget filter does not read the shed marks. -/
theorem admission_shed (s : State) (x : Vector Bool 24) :
    admission { s with arb := { s.arb with shed := x } } = admission s := rfl

theorem filterBudget_resolve (s : State) (ch : Fin 24) :
    (filterBudget (resolveAll s)).arb.resolved[ch] = resolve (filterBudget (resolveAll s)) ch := by
  unfold filterBudget resolveAll
  dsimp only
  rw [resolve_outcome]
  simp

theorem filterBudget_shed (s : State) (ch : Fin 24) :
    (filterBudget s).arb.shed[ch] = (admission (filterBudget s)).2.contains ch := by
  have k : admission (filterBudget s) = admission s := admission_shed s _
  rw [k]
  simp [filterBudget]

theorem handCommands_command (s : State) (ch : Fin 24) :
    (handCommands s).lamp.channels[ch].command = filteredCmd s ch := by simp [handCommands]

/-- A new resolution is arbitrated, whatever the state (R115). -/
theorem rearbitrate_arbitrated (s : State) : Arbitrated (rearbitrate s) := by
  have hf := (handCommands_frame (filterBudget (resolveAll s))).join (c := [.drive, .rearFrames])
    (refreshLamps_frame (handCommands (filterBudget (resolveAll s)))) (by decide) (by decide)
  have hc : ∀ ch : Fin 24, (rearbitrate s).lamp.channels[ch].command =
      (handCommands (filterBudget (resolveAll s))).lamp.channels[ch].command := by
    intro ch
    have e : rearbitrate s = refreshDriven (refreshTimebase (handCommands (filterBudget (resolveAll s)))) := rfl
    rw [e, refreshDriven_command, refreshTimebase_channels]
  refine arbitrated_of (s := filterBudget (resolveAll s))
    (SameRes.ofBands hf (by decide) (SameBands.ofFrame hf (by decide))) (fun ch => ?_) (fun ch => ?_) (fun ch => ?_)
    (fun ch => refreshDriven_driven _ ch) ?_
  · exact filterBudget_resolve s ch
  · exact filterBudget_shed _ ch
  · rw [hc, handCommands_command]
  · rw [anyFlash_congr hc]
    have e : rearbitrate s = refreshDriven (refreshTimebase (handCommands (filterBudget (resolveAll s)))) := rfl
    rw [e, refreshDriven_timebase]
    exact refreshTimebase_timebase _

theorem arbAfter_arbitrated (old s : State) : Arbitrated (arbAfter old s) := rearbitrate_arbitrated _

end Sys2Proof.Machine
end

