-- ==== Sys2Proof/Laws/Arbitrated.lean ====
section
/-! SUPPORT. The operations that leave an arbitrated state arbitrated, block by block. -/

namespace Sys2Proof.Machine

/-! ## Looking into the store -/

theorem setPlace_record (t k : Fin 40) (x : Option Record) (s : State) :
    (setPlace t x s).store.records[k] = if t = k then x else s.store.records[k] := by
  by_cases h : t = k
  · subst h; simp
  · have : t.val ≠ k.val := fun e => h (Fin.ext e)
    simp [h, Vector.getElem_set_ne _ _ this]

/-- The live record of a subject stands in its tag place and is of that subject (R2). -/
theorem liveRecord_some {s : State} {j : Subject} {t : Fin 40} {r : Record} (h : liveRecord s j = some (t, r)) :
    s.store.records[t] = some r ∧ r.content.subject = j := by
  unfold liveRecord at h
  cases hl : liveTag s j with
  | none => simp [hl] at h
  | some u =>
    simp only [hl, Option.map_eq_some_iff, Prod.mk.injEq] at h
    obtain ⟨r', hr, rfl, rfl⟩ := h
    refine ⟨hr, ?_⟩
    have hp := List.find?_some hl
    simpa [hr] using hp

/-- A record of a subject that is live in a tag. -/
theorem liveTag_some {s : State} {j : Subject} {t : Fin 40} (h : liveTag s j = some t) :
    ∃ r, s.store.records[t] = some r ∧ r.content.subject = j := by
  have hp := List.find?_some h
  cases hr : s.store.records[t] with
  | none => simp [hr] at hp
  | some r => exact ⟨r, rfl, by simpa [hr] using hp⟩

/-- A place written with contents of the same bands. -/
theorem setPlace_sameBands (t : Fin 40) (x : Option Record) (s : State)
    (h : ∀ ch, bandAt x ch = bandAt s.store.records[t] ch) : SameBands s (setPlace t x s) := by
  intro k ch
  rw [setPlace_record]
  split
  · next e => subst e; exact h ch
  · rfl

theorem hand_sameArb (t : Fin 40) (s : State) : SameArb s (hand t s) :=
  SameArb.ofFrame (hand_frame t s) (by decide) (by decide)

theorem setPlace_sameArb (t : Fin 40) (x : Option Record) (s : State)
    (h : ∀ ch, bandAt x ch = bandAt s.store.records[t] ch) : SameArb s (setPlace t x s) :=
  SameArb.ofBands (setPlace_frame t x s) (by decide) (setPlace_sameBands t x s h)

/-- A record that takes contents of the same bands. -/
theorem putContent_sameArb (t : Fin 40) (c : Content) (silent : Bool) (s : State)
    (h : ∀ r, s.store.records[t] = some r → ∀ ch, bandIn c ch = bandIn r.content ch) :
    SameArb s (putContent t c silent s) := by
  unfold putContent
  cases hr : s.store.records[t] with
  | none => exact SameArb.refl s
  | some r =>
    have k : SameArb s (setPlace t (some ⟨r.gen + 1, c⟩) s) :=
      setPlace_sameArb _ _ _ fun ch => by rw [hr]; exact h r hr ch
    dsimp only
    exact SameArb.ite _ (SameArb.refl s) (SameArb.ite _ k (k.trans (hand_sameArb _ _)))

theorem touchContent_sameArb (t : Fin 40) (c : Content) (s : State)
    (h : ∀ r, s.store.records[t] = some r → ∀ ch, bandIn c ch = bandIn r.content ch) :
    SameArb s (touchContent t c s) := by
  unfold touchContent
  cases hr : s.store.records[t] with
  | none => exact SameArb.refl s
  | some r =>
    have k : SameArb s (setPlace t (some ⟨r.gen + 1, c⟩) s) :=
      setPlace_sameArb _ _ _ fun ch => by rw [hr]; exact h r hr ch
    exact k.trans (hand_sameArb _ _)

theorem touchRecord_sameArb (t : Fin 40) (s : State) : SameArb s (touchRecord t s) := by
  unfold touchRecord
  cases hr : s.store.records[t] with
  | none => exact SameArb.refl s
  | some r =>
    exact touchContent_sameArb t r.content s fun r' h' ch => by rw [hr] at h'; cases h'; rfl

/-! ## Actuator and input blocks -/

/-- Contents of another kind than LAMP give no channel a band. -/
theorem bandIn_of_kind {c : Content} (h : c.kind ≠ .lamp) (ch : Fin 24) : bandIn c ch = none := by
  cases c <;> simp_all [Content.kind, bandIn]

theorem mirrorWith_sameArb (o : Fin 6) (f : ActRec → ActRec) (s : State) : SameArb s (mirrorWith o f s) := by
  unfold mirrorWith; split
  · next t g k r h =>
    refine putContent_sameArb _ _ _ _ fun r' hr ch => ?_
    have e := (liveRecord_some h).1
    rw [e] at hr
    cases hr; rfl
  · exact SameArb.refl s

theorem setOut_sameArb (o : Fin 6) (x : Actuator) (s : State) : SameArb s (setOut o x s) :=
  SameArb.ofFrame (setOut_frame o x s) (by decide) (by decide)

theorem endRun_sameArb (o : Fin 6) (r : EndReason) (s : State) : SameArb s (endRun o r s) :=
  (setOut_sameArb _ _ _).trans (mirrorWith_sameArb _ _ _)

theorem endMet_sameArb (o : Fin 6) (s : State) : SameArb s (endMet o s) := by
  unfold endMet; dsimp only
  refine (setOut_sameArb o (endedOut .target s.act.outs[o]) s).trans ?_
  split
  · next t g k r h =>
    refine touchContent_sameArb _ _ _ fun r' hr ch => ?_
    rw [(liveRecord_some h).1] at hr
    cases hr; rfl
  · exact SameArb.refl _

theorem freeOut_sameArb (o : Fin 6) (s : State) : SameArb s (freeOut o s) :=
  (setOut_sameArb _ _ _).trans (mirrorWith_sameArb _ _ _)

theorem dropHolds_sameArb (m : Master) (r : EndReason) (s : State) : SameArb s (dropHolds m r s) := by
  refine forEach_sameArb (fun _ t => ?_) _ _
  exact SameArb.ite _ (SameArb.ite _ (endRun_sameArb _ _ _) (freeOut_sameArb _ _)) (SameArb.refl t)

theorem judgeRuns_sameArb (s : State) : SameArb s (judgeRuns s) :=
  forEach_sameArb (fun _ t => SameArb.ite _ (endRun_sameArb _ _ _) (SameArb.refl t)) _ _

theorem positionRules_sameArb (c : Fin 2) (s : State) : SameArb s (positionRules c s) := by
  refine forEach_sameArb (fun o t => ?_) _ _
  unfold positionRule; dsimp only; split
  · exact SameArb.refl t
  · exact SameArb.ite _ (endRun_sameArb _ _ _) (SameArb.ite _ (endRun_sameArb _ _ _) (SameArb.refl t))

theorem touchLinked_sameArb (c : Fin 2) (s : State) : SameArb s (touchLinked c s) := by
  refine forEach_sameArb (fun o t => ?_) _ _
  split
  · exact SameArb.ite _ (touchRecord_sameArb _ _) (SameArb.refl t)
  · exact SameArb.refl t

theorem moveCounter_sameArb (c : Fin 2) (x : Counter) (s : State) : SameArb s (moveCounter c x s) := by
  unfold moveCounter; dsimp only
  have h1 : SameArb s (setCounter c x s) := SameArb.ofFrame (setCounter_frame c x s) (by decide) (by decide)
  split
  · exact SameArb.ite _ h1 (h1.trans (positionRules_sameArb _ _))
  · exact ((h1.trans (touchLinked_sameArb _ _)).trans (positionRules_sameArb _ _)).trans (judgeRuns_sameArb _)

theorem homeFor_sameArb (fn : Nat) (s : State) : SameArb s (homeFor fn s) := by
  refine forEach_sameArb (fun o t => ?_) _ _
  split
  · refine SameArb.ite _ ?_ (SameArb.refl t)
    cases linkCounter _ with
    | none => exact SameArb.refl t
    | some c => exact SameArb.ite _ (SameArb.refl t) (moveCounter_sameArb _ _ _)
  · exact SameArb.refl t

theorem senseScan_sameArb (s : State) : SameArb s (senseScan s) := by
  unfold senseScan; dsimp only; split
  · exact SameArb.refl s
  · refine SameArb.trans ?_ (judgeRuns_sameArb _)
    refine SameArb.trans ?_ (forEach_sameArb (fun k t => homeFor_sameArb _ _) _ _)
    exact ⟨⟨rfl, rfl, rfl, rfl, rfl, rfl, rfl, fun _ _ => rfl, fun _ => rfl⟩, rfl, fun _ => ⟨rfl, rfl⟩⟩

/-! ## Record store -/

/-- An operation keeps a state arbitrated. -/
def KeepsArb (f : State → State) : Prop := ∀ s, Arbitrated s → Arbitrated (f s)

theorem KeepsArb.ofSame {f : State → State} (h : ∀ s, SameArb s (f s)) : KeepsArb f := fun s a => a.congr (h s)

theorem forEach_keepsArb {α : Type} {f : α → State → State} (h : ∀ x, KeepsArb (f x)) (xs : List α) :
    KeepsArb (forEach xs f) := by
  induction xs with
  | nil => exact fun s a => a
  | cons x xs ih => exact fun s a => ih _ (h x s a)

theorem Arbitrated.ite {s t : State} (c : Prop) [Decidable c] (h : Arbitrated s) (k : Arbitrated t) :
    Arbitrated (if c then s else t) := by split <;> assumption

/-- Contents of one subject and one expected band. -/
theorem bandIn_lamp (k ch : Fin 24) (a b : LampRec) (h : a.expected = b.expected) :
    bandIn (.lamp k a) ch = bandIn (.lamp k b) ch := by simp [bandIn, h]

/-- The marks of an event are not read by the arbiter. -/
theorem watched_sameArb (old s : State) : SameArb s (watched old s) :=
  ⟨⟨rfl, rfl, rfl, rfl, rfl, rfl, rfl, fun _ _ => rfl, fun _ => rfl⟩, rfl, fun _ => ⟨rfl, rfl⟩⟩

theorem Arbitrated.watched {old s : State} (a : Arbitrated s) : Arbitrated (Machine.watched old s) :=
  a.congr (watched_sameArb old s)

/-- An update by contents of the record's own subject (R16, R115). -/
theorem updateRec_arbitrated {t : Fin 40} {c : Content} {silent : Bool} {s : State} (a : Arbitrated s)
    (h : ∀ r, s.store.records[t] = some r → c.subject = r.content.subject) :
    Arbitrated (updateRec t c silent s) := by
  unfold updateRec
  cases hr : s.store.records[t] with
  | none => exact a
  | some r =>
    have hs := h r hr
    dsimp only
    refine Arbitrated.ite _ a (Arbitrated.watched ?_)
    have put : (∀ ch, bandIn c ch = bandIn r.content ch) → Arbitrated (putContent t c silent s) := fun hb =>
      a.congr (putContent_sameArb _ _ _ _ fun r' hr' ch => by rw [hr] at hr'; cases hr'; exact hb ch)
    obtain ⟨g, b⟩ := r
    cases c <;> cases b <;> simp only [Content.subject, reduceCtorEq, Subject.lamp.injEq, Subject.sensor.injEq,
      Subject.actuator.injEq] at hs
    · next k x k' y =>
      subst hs
      show Arbitrated (afterLampChange k y x (putContent t (.lamp k x) silent s))
      unfold afterLampChange; dsimp only
      split
      · next he =>
        have p := put fun ch => bandIn_lamp k ch x y he.symm
        exact Arbitrated.ite _ p (p.congr (resetCounts_sameArb _ _))
      · exact rearbitrate_arbitrated _
    · exact (put fun _ => rfl).congr (senseScan_sameArb _)
    · exact put fun _ => rfl
    · exact put fun _ => rfl

/-- What the appearance or the disappearance of a record leaves arbitrated, the LAMP record's bands aside. -/
theorem afterPresence_arbitrated {c : Content} {released : Bool} {s : State} (h : c.kind ≠ .lamp → Arbitrated s) :
    Arbitrated (afterPresence c released s) := by
  cases c with
  | lamp ch r => exact rearbitrate_arbitrated _
  | sensor i r => exact (h (by simp [Content.kind])).congr (senseScan_sameArb _)
  | actuator o r =>
    exact Arbitrated.ite _ ((h (by simp [Content.kind])).congr (setOut_sameArb _ _ _)) (h (by simp [Content.kind]))
  | unit r => exact h (by simp [Content.kind])

theorem lowestFree_none {s : State} {t : Fin 40} (h : lowestFree s.store = some t) : s.store.records[t] = none := by
  have hp := List.find?_some h
  simpa using hp

theorem createRec_arbitrated {c : Content} {s : State} (a : Arbitrated s) : Arbitrated (createRec c s) := by
  unfold createRec
  cases hl : lowestFree s.store with
  | none => exact a
  | some t =>
    refine Arbitrated.watched (afterPresence_arbitrated fun hk => ?_)
    refine a.congr ((setPlace_sameArb t _ s fun ch => ?_).trans (hand_sameArb _ _))
    rw [lowestFree_none hl]
    exact bandIn_of_kind hk ch

theorem dropTag_sameArb (t : Fin 40) (s : State) : SameArb s (dropTag t s) :=
  SameArb.ofFrame (dropTag_frame t s) (by decide) (by decide)

theorem removeRec_arbitrated {t : Fin 40} {s : State} (a : Arbitrated s) : Arbitrated (removeRec t s) := by
  unfold removeRec
  cases hr : s.store.records[t] with
  | none => exact a
  | some r =>
    refine Arbitrated.watched (afterPresence_arbitrated fun hk => ?_)
    refine a.congr ((setPlace_sameArb t none s fun ch => ?_).trans (dropTag_sameArb _ _))
    rw [hr]
    exact (bandIn_of_kind hk ch).symm

/-- A supersede by contents of the record's own kind, other than LAMP (R17). -/
theorem supersedeRaw_arbitrated {t : Fin 40} {c : Content} {s : State} (a : Arbitrated s)
    (h : ∀ r, s.store.records[t] = some r → r.content.kind ≠ .lamp ∧ c.kind ≠ .lamp) :
    Arbitrated (supersedeRaw t c s) := by
  unfold supersedeRaw
  cases hr : s.store.records[t] with
  | none => exact a
  | some r =>
    cases hl : lowestFree s.store with
    | none => exact a
    | some u =>
      obtain ⟨hk, hc⟩ := h r hr
      have h1 : SameArb s (setPlace u (some ⟨r.gen + 1, c⟩) s) := setPlace_sameArb _ _ _ fun ch => by
        rw [lowestFree_none hl]; exact bandIn_of_kind hc ch
      have h2 : SameArb s (setPlace t none (setPlace u (some ⟨r.gen + 1, c⟩) s)) := by
        refine h1.trans (setPlace_sameArb _ _ _ fun ch => ?_)
        rw [setPlace_record]
        split
        · exact (bandIn_of_kind hc ch).symm
        · rw [hr]; exact (bandIn_of_kind hk ch).symm
      have h3 : SameArb s (hand u (renameTag t u (setPlace t none (setPlace u (some ⟨r.gen + 1, c⟩) s)))) :=
        (h2.trans (SameArb.ofFrame (renameTag_frame t u _) (by decide) (by decide))).trans (hand_sameArb _ _)
      have b := a.congr h3
      refine Arbitrated.watched (s := afterChange r.content c _) ?_
      cases hd : r.content with
      | lamp k x => simp [hd, Content.kind] at hk
      | sensor i x =>
        cases c with
        | sensor j y => exact b.congr (senseScan_sameArb _)
        | _ => exact b
      | actuator o x => cases c <;> exact b
      | unit x => cases c <;> exact b

theorem contentFor_some {j : Subject} {o : Option Content} {c : Content} (h : contentFor j o = some c) :
    c.subject = j := by
  simp only [contentFor, Option.filter_eq_some_iff, decide_eq_true_eq] at h
  exact h.2

/-- Two contents of one subject and of different cell counts are no LAMP contents. -/
theorem kind_of_cells {a b : Content} (h : a.subject = b.subject) (k : a.cells ≠ b.cells) :
    a.kind ≠ .lamp ∧ b.kind ≠ .lamp := by
  cases a <;> cases b <;> simp_all [Content.subject, Content.cells, Content.kind]

theorem writeContent_arbitrated {j : Subject} {mk : Option Content → Option Content} {s : State}
    (a : Arbitrated s) : Arbitrated (writeContent j mk s) := by
  unfold writeContent
  cases hl : liveRecord s j with
  | none =>
    dsimp only
    cases contentFor j (mk none) with
    | none => exact a
    | some c => exact createRec_arbitrated a
  | some p =>
    obtain ⟨t, r⟩ := p
    obtain ⟨hr, hj⟩ := liveRecord_some hl
    dsimp only
    cases hc : contentFor j (mk (some r.content)) with
    | none => exact a
    | some c =>
      have hs : c.subject = r.content.subject := (contentFor_some hc).trans hj.symm
      dsimp only [Option.elim]
      split
      · exact updateRec_arbitrated a fun r' h => by rw [hr] at h; cases h; exact hs
      · next hne =>
        refine supersedeRaw_arbitrated a fun r' h => ?_
        rw [hr] at h; cases h
        exact (kind_of_cells hs hne).symm

theorem setSeq_sameArb (n : Fin 4) (q : Sequencer) (s : State) : SameArb s (setSeq n q s) :=
  SameArb.ofFrame (setSeq_frame n q s) (by decide) (by decide)

theorem setAllocQueue_sameArb (qs : List AllocReq) (s : State) : SameArb s (setAllocQueue qs s) :=
  ⟨⟨rfl, rfl, rfl, rfl, rfl, rfl, rfl, fun _ _ => rfl, fun _ => rfl⟩, rfl, fun _ => ⟨rfl, rfl⟩⟩

theorem dropHeld_sameArb (r : Requester) (s : State) : SameArb s (dropHeld r s) :=
  SameArb.ofFrame (dropHeld_frame r s) (by decide) (by decide)

theorem completeReq_keepsArb (q : AllocReq) : KeepsArb (completeReq q) := by
  intro s a
  unfold completeReq
  refine Arbitrated.congr (Arbitrated.ite _ ?_ (writeContent_arbitrated a)) (dropHeld_sameArb _ _)
  cases liveTag s q.subject with
  | none => exact a
  | some t => exact removeRec_arbitrated a

theorem retryQueue_keepsArb (k : Nat) : KeepsArb (retryQueue k) := by
  induction k with
  | zero => exact fun s a => a
  | succ k ih =>
    intro s a
    unfold retryQueue; split
    · exact a
    · exact Arbitrated.ite _ (ih _ (completeReq_keepsArb _ _ (a.congr (setAllocQueue_sameArb _ _)))) a

theorem retry_keepsArb : KeepsArb retry := fun _ a => retryQueue_keepsArb _ _ a

theorem releaseRec_keepsArb (t : Fin 40) : KeepsArb (releaseRec t) := fun _ a =>
  retry_keepsArb _ (removeRec_arbitrated a)

theorem releaseSubject_keepsArb (j : Subject) : KeepsArb (releaseSubject j) := by
  intro s a
  unfold releaseSubject
  cases liveTag s j with
  | none => exact a
  | some t => exact releaseRec_keepsArb t s a

theorem withdraw_keepsArb (who : Requester → Bool) : KeepsArb (withdraw who) := by
  intro s a
  unfold withdraw; dsimp only
  have b := a.congr (setAllocQueue_sameArb (s.store.queue.filter fun q => !who q.requester) s)
  exact Arbitrated.ite _ b (retry_keepsArb _ b)

theorem requestAlloc_keepsArb (q : AllocReq) (mk : Option Content → Option Content) :
    KeepsArb fun s => (requestAlloc q mk s).1 := by
  intro s a
  dsimp only [requestAlloc]
  split
  · exact writeContent_arbitrated a
  · exact a.congr (setAllocQueue_sameArb _ _)

theorem resultContent_subject (s : State) (res : StepResult) (n : Nat) (old : Option Content) :
    (resultContent s res n old).subject = res.subject := by cases res <;> rfl

theorem storeResult_keepsArb (n : Fin 4) (res : StepResult) : KeepsArb fun s => (storeResult n res s).1 := by
  intro s a
  dsimp only [storeResult]
  split
  · exact releaseSubject_keepsArb _ s a
  · split
    · exact requestAlloc_keepsArb _ _ s a
    · next t r h =>
      obtain ⟨hr, hj⟩ := liveRecord_some h
      split
      · exact updateRec_arbitrated a fun r' h' => by
          rw [hr] at h'; cases h'; rw [hj]; exact resultContent_subject _ _ _ _
      · exact requestAlloc_keepsArb _ _ s a

theorem writeUnit_keepsArb : KeepsArb writeUnit := by
  intro s a
  unfold writeUnit
  cases h : liveTag s .unit with
  | none => exact Arbitrated.ite _ a (requestAlloc_keepsArb _ _ s a)
  | some t =>
    obtain ⟨r, hr, hj⟩ := liveTag_some h
    exact updateRec_arbitrated a fun r' h' => by rw [hr] at h'; cases h'; rw [hj]; rfl

theorem updateUnit_keepsArb : KeepsArb updateUnit := by
  intro s a
  unfold updateUnit
  cases h : liveTag s .unit with
  | none => exact a
  | some t =>
    obtain ⟨r, hr, hj⟩ := liveTag_some h
    exact updateRec_arbitrated a fun r' h' => by rw [hr] at h'; cases h'; rw [hj]; rfl

theorem loseUnit_keepsArb : KeepsArb loseUnit := by
  intro s a
  unfold loseUnit; split
  · next t g r h =>
    have hr := (liveRecord_some h).1
    exact updateRec_arbitrated a fun r' h' => by rw [hr] at h'; cases h'; rfl
  · exact a

theorem renumberUnit_keepsArb : KeepsArb renumberUnit := by
  intro s a
  unfold renumberUnit; split
  · next t g r h =>
    have hr := (liveRecord_some h).1
    exact updateRec_arbitrated a fun r' h' => by rw [hr] at h'; cases h'; rfl
  · exact a

theorem mirrorLamp_keepsArb (ch : Fin 24) (f : LampRec → LampRec) : KeepsArb (mirrorLamp ch f) := by
  intro s a
  unfold mirrorLamp; split
  · next t g k r h =>
    obtain ⟨hr, hj⟩ := liveRecord_some h
    refine updateRec_arbitrated a fun r' h' => ?_
    rw [hr] at h'; cases h'; exact hj.symm
  · exact a

theorem applyResult_keepsArb (n : Fin 4) (res : StepResult) : KeepsArb fun s => (applyResult n res s).1 := by
  intro s a
  cases res with
  | lamp ch cls band => exact (rearbitrate_arbitrated _).watched
  | sensor i r => exact storeResult_keepsArb _ _ s a
  | actuator o r => exact storeResult_keepsArb _ _ s a

/-! ## Sequencers -/

/-- The moves of sequencers and of the source alone. -/
theorem seqFrame_arbitrated {s t : State} (a : Arbitrated s) (h : Frame seqPieces s t) : Arbitrated t :=
  a.congr (SameArb.ofFrame h (by decide) (by decide))

theorem reachFuel_keepsArb (k : Nat) (n : Fin 4) (asked : Bool) : KeepsArb (reachFuel k n asked) := by
  induction k generalizing asked with
  | zero => exact fun s a => a
  | succ k ih =>
    intro s a
    have go : ∀ t, Arbitrated t →
        Arbitrated (if (advance n t).2 then reachFuel k n false (advance n t).1 else (advance n t).1) := by
      intro t b
      have c := seqFrame_arbitrated b (advance_frame n t)
      exact Arbitrated.ite _ (ih _ _ c) c
    have st : ∀ x, Arbitrated (setStatus n x s) := fun x => a.congr (setSeq_sameArb _ _ _)
    unfold reachFuel; dsimp only; split
    · exact a
    · exact st _
    · exact st _
    · exact st _
    · exact ih _ _ (seqFrame_arbitrated a (insertClassify_frame n s))
    · exact go s a
    · next i r _ =>
      have b := applyResult_keepsArb n (.sensor i r) s a
      exact Arbitrated.ite _ (seqFrame_arbitrated b (holdResult_frame _ _ _)) (go _ b)

theorem reach_keepsArb (n : Fin 4) (asked : Bool) : KeepsArb (reach n asked) := reachFuel_keepsArb _ _ _

theorem finishStep_keepsArb (n : Fin 4) : KeepsArb (finishStep n) := by
  intro s a
  have b := seqFrame_arbitrated a (advance_frame n s)
  exact Arbitrated.ite _ (reach_keepsArb _ _ _ b) b

theorem endStep_keepsArb (n : Fin 4) (res : StepResult) : KeepsArb (endStep n res) := by
  intro s a
  have b := applyResult_keepsArb n res s a
  exact Arbitrated.ite _ (seqFrame_arbitrated b (holdResult_frame _ _ _)) (finishStep_keepsArb _ _ b)

theorem endVerify_keepsArb (n : Fin 4) (ch : Fin 24) (cls : LoadClass) : KeepsArb (endVerify n ch cls) := fun s a =>
  Arbitrated.ite _ (finishStep_keepsArb _ _ a)
    (reach_keepsArb _ _ _ (seqFrame_arbitrated a (insertClassify_frame n s)))

theorem endLit_keepsArb (n : Fin 4) (ch : Fin 24) (cls : LoadClass) (band : Nat) : KeepsArb (endLit n ch cls band) :=
  fun _ a => Arbitrated.ite _ (endVerify_keepsArb _ _ _ _ a) (endStep_keepsArb _ _ _ a)

theorem endLitSteps_keepsArb (ch : Fin 24) (cls : LoadClass) (band : Nat) : KeepsArb (endLitSteps ch cls band) :=
  fun _ a => forEach_keepsArb (fun _ => endLit_keepsArb _ _ _ _) _ _ a

theorem abandonIf_sameArb (b : Bool) (s : State) : SameArb s (abandonIf b s) :=
  SameArb.ofFrame (abandonIf_frame b s) (by decide) (by decide)

theorem stopAll_keepsArb (ns : List (Fin 4)) : KeepsArb (stopAll ns) := fun s a =>
  (withdraw_keepsArb _ _ (forEach_keepsArb (fun n t b => seqFrame_arbitrated b (clearSeq_frame n t)) ns s a)).congr
    (abandonIf_sameArb _ _)

theorem stopSeq_keepsArb (n : Fin 4) : KeepsArb (stopSeq n) := stopAll_keepsArb _

theorem stopWhere_keepsArb (p : Sequencer → Bool) : KeepsArb (stopWhere p) := fun _ a => stopAll_keepsArb _ _ a

theorem loadSeq_keepsArb (n : Fin 4) (p : Program) (o : Origin) : KeepsArb (loadSeq n p o) := fun s a =>
  reach_keepsArb _ _ _ ((stopSeq_keepsArb n s a).congr (setSeq_sameArb _ _ _))

theorem loadVerifyCycle_keepsArb : KeepsArb loadVerifyCycle := fun s a =>
  Arbitrated.ite _ (stopSeq_keepsArb _ s a) (loadSeq_keepsArb _ _ _ s a)

theorem skipCheck_keepsArb (o : Fin 6) : KeepsArb (skipCheck o) := by
  intro s a
  unfold skipCheck; split
  · exact Arbitrated.ite _ (finishStep_keepsArb _ _ a) a
  · exact a

/-! ## Train chain -/

/-- What the chain block changes beside the store and its own records. -/
def chainPieces : List Piece :=
  [.number, .rear, .repeats, .forward, .fresh, .rearFrames, .masterFrames, .stations, .notice, .causes, .coupling,
    .events, .idle]

/-- A frame within the chain block's own pieces. -/
theorem chainFrame_sameArb {a : List Piece} {s t : State} (h : Frame a s t) (ha : ∀ p ∈ a, p ∈ chainPieces) :
    SameArb s t := SameArb.ofFrame (h.mono ha) (by decide) (by decide)

theorem mapChain_sameArb (f : Chain → Chain) (s : State) : SameArb s (mapChain f s) :=
  chainFrame_sameArb (mapChain_frame f s) (by decide)

theorem mapCauses_sameArb (f : Causes → Causes) (s : State) : SameArb s (mapCauses f s) :=
  mapCc_sameArb (fun c => { c with causes := f c.causes }) s (fun _ => rfl) fun _ => rfl

theorem loseRear_keepsArb : KeepsArb loseRear := by
  intro s a
  unfold loseRear; split
  · exact a
  · have b := (a.congr (chainFrame_sameArb (feedOff_frame s) (by decide))).congr (mapChain_sameArb (fun c =>
      { c with assignOut := false, assigned := 0, report := none, rear := .vacant, bar := .none }) _)
    exact (withdraw_keepsArb _ _ (releaseSubject_keepsArb _ _ b)).congr (mapCauses_sameArb _ _)

theorem suspendFeed_keepsArb : KeepsArb suspendFeed := fun s a =>
  Arbitrated.ite _
    (loseUnit_keepsArb _ ((a.congr (chainFrame_sameArb (feedOff_frame s) (by decide))).congr (mapChain_sameArb _ _))) a

theorem overcurrent_keepsArb : KeepsArb overcurrent := fun s a =>
  Arbitrated.ite _
    (loseUnit_keepsArb _ ((a.congr (chainFrame_sameArb (feedOff_frame s) (by decide))).congr
      (chainFrame_sameArb (bar_frame _ _) (by decide)))) a

theorem sendAssign_sameArb (s : State) : SameArb s (sendAssign s) :=
  chainFrame_sameArb (sendAssign_frame s) (by decide)

theorem takeHello_keepsArb (r : Report) : KeepsArb (takeHello r) := by
  intro s a
  have link : Arbitrated (linkNeighbour r s) := writeUnit_keepsArb _
    (((a.congr (mapChain_sameArb (fun c => { c with helloTimer := .stopped, report := some (capReport r) }) s)).congr
      (sendAssign_sameArb _)).congr (mapChain_sameArb _ _))
  unfold takeHello; split
  · exact link
  · exact link
  · exact updateUnit_keepsArb _ ((a.congr (mapChain_sameArb (fun c =>
      { c with report := some (capReport r), silence := .running }) s)).congr (sendAssign_sameArb _))
  · exact a

theorem rearHeard_sameArb (s : State) : SameArb s (rearHeard s) :=
  chainFrame_sameArb (rearHeard_frame s) (by decide)

theorem takeAssignReply_sameArb (r : Result) (s : State) : SameArb s (takeAssignReply r s) :=
  chainFrame_sameArb (takeAssignReply_frame r s) (by decide)

theorem takeAdjacent_keepsArb (r : Report) : KeepsArb (takeAdjacent r) := by
  intro s a
  have b := a.congr (mapChain_sameArb (fun c => { c with report := some (capReport r) }) s)
  exact Arbitrated.ite _ (writeUnit_keepsArb _ b) (updateUnit_keepsArb _ b)

theorem takeSummary_keepsArb (src : Nat) (r : Report) (f : FwdFrame) : KeepsArb (takeSummary src r f) := by
  intro s a
  unfold takeSummary
  refine Arbitrated.ite _ ?_ a
  have b := a.congr (chainFrame_sameArb (joinUp_frame f s) (by decide))
  have c := Arbitrated.ite (src = (joinUp f s).chain.own + 1) (takeAdjacent_keepsArb r _ b) b
  exact Arbitrated.ite _ (c.congr (sendAssign_sameArb _)) c

theorem passUp_sameArb (f : FwdFrame) (s : State) : SameArb s (passUp f s) :=
  chainFrame_sameArb (passUp_frame f s) (by decide)

theorem loseNeighbour_keepsArb : KeepsArb loseNeighbour := by
  intro s a
  unfold loseNeighbour; dsimp only
  exact (loseUnit_keepsArb _ (a.congr (mapChain_sameArb _ _))).congr (mapCauses_sameArb _ _)

theorem takeNumber_keepsArb (n : Nat) : KeepsArb (takeNumber n) := by
  intro s a
  have b := a.congr (mapChain_sameArb (fun c => { c with helloRepeat := .stopped }) s)
  have bar4 : ∀ t, Arbitrated t → Arbitrated (barForNumber t) := by
    intro t c
    have d : ∀ u, Arbitrated u → Arbitrated (bar .number u) := fun u k =>
      k.congr (chainFrame_sameArb (bar_frame _ _) (by decide))
    have e := c.congr (chainFrame_sameArb (feedOff_frame t) (by decide))
    unfold barForNumber; split
    · exact d _ c
    · exact d _ e
    · exact d _ e
    · exact loseUnit_keepsArb _ (d _ e)
    · exact c
  have low : ∀ t, Arbitrated t → Arbitrated (renumberRear t) := by
    intro t c
    unfold renumberRear; split
    · exact renumberUnit_keepsArb _ (c.congr (sendAssign_sameArb _))
    · exact Arbitrated.ite _ (c.congr (mapChain_sameArb _ _)) c
    · exact c
  unfold takeNumber; dsimp only
  refine Arbitrated.ite _ b ?_
  have c := b.congr (mapChain_sameArb (fun c => { c with own := n }) _)
  exact Arbitrated.ite _ (bar4 _ c) (low _ c)

/-! ## Coupling controller -/

/-- A change of coupling state or motion is arbitrated, whatever the state (R115, R123). -/
theorem changeCoupling_arbitrated (f : State → State) (s : State) : Arbitrated (changeCoupling f s) :=
  (arbAfter_arbitrated _ _).congr (judgeRuns_sameArb _)

theorem inputFrame_sameArb {s t : State} (h : Frame [.inputs] s t) : SameArb s t :=
  SameArb.ofFrame h (by decide) (by decide)

theorem enterQuiet_arbitrated (s : State) : Arbitrated (enterQuiet s) := by
  unfold enterQuiet; dsimp only
  exact stopWhere_keepsArb _ _ ((changeCoupling_arbitrated _ _).congr (inputFrame_sameArb (takeSnapshot_frame _)))

theorem enterLocal_arbitrated (s : State) : Arbitrated (enterLocal s) := changeCoupling_arbitrated _ _

theorem restartIdle_sameArb (s : State) : SameArb s (restartIdle s) := mapCc_sameArb _ _ (fun _ => rfl) fun _ => rfl

theorem wake_keepsArb : KeepsArb wake := fun s a =>
  Arbitrated.ite _ ((enterLocal_arbitrated s).congr (restartIdle_sameArb _)) a

/-- A wake out of QUIET is arbitrated, whatever the state. -/
theorem wake_arbitrated {s : State} (h : s.cc.state = .quiet) : Arbitrated (wake s) := by
  unfold wake; rw [if_pos h]
  exact (enterLocal_arbitrated s).congr (restartIdle_sameArb _)

theorem enterMating_arbitrated (s : State) : Arbitrated (enterMating s) := changeCoupling_arbitrated _ _

theorem returnToBattery_arbitrated (s : State) : Arbitrated (returnToBattery s) := by
  unfold returnToBattery; dsimp only
  exact Arbitrated.ite _ (enterLocal_arbitrated _) (enterQuiet_arbitrated _)

theorem bindLamp_keepsArb (t : Fin 40) : KeepsArb (bindLamp t) := by
  intro s a
  unfold bindLamp; split
  · next g ch r hr =>
    refine Arbitrated.ite _ (releaseRec_keepsArb _ _ a) (updateRec_arbitrated a fun r' h' => ?_)
    rw [hr] at h'; cases h'; rfl
  · exact a

/-- A load of the active plan is arbitrated, whatever the state (R47). -/
theorem loadPlan_arbitrated (s : State) : Arbitrated (loadPlan s) := by
  unfold loadPlan; dsimp only
  exact ((rearbitrate_arbitrated _).congr (senseScan_sameArb _)).congr (judgeRuns_sameArb _)

theorem loadBringUp_keepsArb : KeepsArb loadBringUp := by
  intro s a
  have b := seqFrame_arbitrated (seqFrame_arbitrated (seqFrame_arbitrated a (clearSeq_frame 0 s))
    (clearSeq_frame 1 _)) (clearSeq_frame 2 _)
  have c := (withdraw_keepsArb isBringUpSeq _ b).congr (mapCc_sameArb (fun c => { c with bringUp := true }) _ (fun _ => rfl) fun _ => rfl)
  unfold loadBringUp; dsimp only
  exact loadSeq_keepsArb _ _ _ _ (loadSeq_keepsArb _ _ _ _ (loadSeq_keepsArb _ _ _ _ c))

theorem reconcile_sameArb (s : State) : SameArb s (reconcile s) := by
  unfold reconcile
  refine ⟨⟨rfl, rfl, rfl, rfl, rfl, rfl, rfl, fun _ _ => rfl, fun _ => rfl⟩, rfl, fun _ => ⟨rfl, rfl⟩⟩

theorem greetFront_arbitrated (s : State) : Arbitrated (greetFront s) := by
  have a := rearbitrate_arbitrated (placeFallback s)
  unfold greetFront; dsimp only
  exact Arbitrated.ite _
    (((a.congr (reconcile_sameArb _)).congr (chainFrame_sameArb (sendHello_frame _) (by decide))).congr
      (mapChain_sameArb _ _)) a

theorem enterProbing_arbitrated (w : ProbingFrom) (s : State) : Arbitrated (enterProbing w s) := by
  unfold enterProbing; dsimp only
  refine Arbitrated.ite _ (greetFront_arbitrated _) ?_
  exact (loadBringUp_keepsArb _ (loadPlan_arbitrated _)).congr (mapCc_sameArb _ _ (fun _ => rfl) fun _ => rfl)

theorem completeBringUp_keepsArb : KeepsArb completeBringUp := by
  intro s a
  have b := a.congr (mapCc_sameArb (completedCc s.plan.active.ident) s (fun _ => rfl) fun _ => rfl)
  have c := seqFrame_arbitrated (loadSeq_keepsArb 1 cycleMeasure .cycle _ (loadVerifyCycle_keepsArb _ b))
    (clearSeq_frame 2 _)
  unfold completeBringUp; dsimp only
  generalize clearSeq 2 (loadSeq 1 cycleMeasure .cycle (loadVerifyCycle (mapCc (completedCc s.plan.active.ident) s))) = u
    at c ⊢
  have d := Arbitrated.ite (u.cc.state = .probing)
    (changeCoupling_arbitrated (mapCc fun c => { c with state := .serving, deadline := .stopped }) u) c
  exact Arbitrated.ite _ ((d.congr (mapChain_sameArb _ _)).congr (mapCc_sameArb _ _ (fun _ => rfl) fun _ => rfl)) d

theorem deadlineExpires_arbitrated (s : State) : Arbitrated (deadlineExpires s) := changeCoupling_arbitrated _ _

theorem noteNoRoom_sameArb (s : State) : SameArb s (noteNoRoom s) :=
  SameArb.ite _ (mapCc_sameArb _ _ (fun _ => rfl) fun _ => rfl) (SameArb.refl s)

theorem enterParting_arbitrated (s : State) : Arbitrated (enterParting s) := by
  unfold enterParting; dsimp only
  exact suspendFeed_keepsArb _ (stopWhere_keepsArb _ _ (changeCoupling_arbitrated _ _))

theorem returnFromParting_arbitrated (s : State) : Arbitrated (returnFromParting s) := by
  unfold returnFromParting
  refine Arbitrated.ite _ (enterProbing_arbitrated _ _) ?_
  unfold resumeServing; dsimp only
  have a := changeCoupling_arbitrated
    (mapCc fun c => { c with state := .serving, partingHold := .stopped, origin := .none }) s
  exact Arbitrated.ite _ (loadVerifyCycle_keepsArb _ (a.congr (mapCc_sameArb _ _ (fun _ => rfl) fun _ => rfl))) a

theorem detach_sameArb (m : Master) (s : State) : SameArb s (detach m s) :=
  chainFrame_sameArb (detach_frame m s) (by decide)

theorem teardown_arbitrated (s : State) : Arbitrated (teardown s) := by
  unfold teardown; dsimp only
  exact (changeCoupling_arbitrated _ _).congr (detach_sameArb _ _)

theorem resetFrontQueue_sameArb (s : State) : SameArb s (resetFrontQueue s) :=
  chainFrame_sameArb (setQueue_frame _ _ s) (by decide)

/-! ## A whole event -/

theorem runReaction_keepsArb (r : Reaction) : KeepsArb (runReaction r) := by
  intro s a
  cases r with
  | storeDone n => exact finishStep_keepsArb n s a
  | relit n => exact reach_keepsArb n true s a
  | convert n => exact (seqFrame_arbitrated a ((releaseSource_frame n s).mono (by decide))).congr (setSeq_sameArb _ _ _)
  | skipCheck n => exact finishStep_keepsArb n s a
  | gateCloses n => exact a.congr (setSeq_sameArb _ _ _)
  | gateOpens n => exact reach_keepsArb n false s a
  | grant n => exact seqFrame_arbitrated a (grantTo_frame n s)
  | complete => exact completeBringUp_keepsArb s a
  | quiet => exact enterQuiet_arbitrated s
  | feed => exact a.congr (chainFrame_sameArb (enterFeeding_frame s) (by decide))

theorem react_keepsArb (k : Nat) : KeepsArb (react k) := fun s a =>
  react_induct (P := Arbitrated) (fun r t b _ => runReaction_keepsArb r t b) (fun _ _ b => b.watched) k s a

theorem settle_sameArb (old s : State) : SameArb s (settle old s) :=
  SameArb.ofFrame (settle_frame old s) (by decide) (by decide)

/-- An event whose own effect is arbitrated ends arbitrated. -/
theorem event_arbitrated {s : State} {f : State → State} (h : s.powered = true) (a : Arbitrated (f s)) :
    Arbitrated (event f s) := by
  rw [event_powered h]
  exact (react_keepsArb _ _ a).congr (settle_sameArb _ _)

/-- An event of an outside level, on a powered part (log entry 5). -/
theorem lineEvent_arbitrated {set : State → State} {f : State → State → State} {s : State} (h : s.powered = true)
    (a : Arbitrated (f s (set s))) : Arbitrated (lineEvent set f s) := by
  unfold lineEvent; rw [if_pos h]
  exact event_arbitrated h a

/-- A supply reset is arbitrated, whatever the state (R83, R128). -/
theorem supplyReset_arbitrated (v : SupplyView) (s : State) : Arbitrated (supplyReset v s) := by
  unfold supplyReset; dsimp only; unfold afterReset
  exact (rearbitrate_arbitrated _).congr (reconcile_sameArb _)

/-- UNIT_CLEAR's effect is arbitrated, whatever the state (R192). -/
theorem unitClear_arbitrated (s : State) : Arbitrated (unitClear s) := by
  unfold unitClear afterReset
  exact (rearbitrate_arbitrated _).congr (reconcile_sameArb _)

/-! ## Requests -/

theorem replyWith_sameArb (h : ReqHdr) (r : Result) (b : Body) (s : State) : SameArb s (replyWith h r b s) :=
  chainFrame_sameArb (replyWith_frame h r b s) (by decide)

theorem reply_sameArb (h : ReqHdr) (r : Result) (s : State) : SameArb s (reply h r s) := replyWith_sameArb _ _ _ _

theorem refuseEarly_sameArb (h : ReqHdr) (r : Result) (s : State) : SameArb s (refuseEarly h r s) :=
  chainFrame_sameArb (refuseEarly_frame h r s) (by decide)

theorem setStation_sameArb (m : Master) (x : Station) (s : State) : SameArb s (setStation m x s) :=
  chainFrame_sameArb (setStation_frame m x s) (by decide)

theorem passDown_sameArb (h : ReqHdr) (f : FwdFrame) (b : Bool) (s : State) : SameArb s (passDown h f b s) :=
  chainFrame_sameArb (passDown_frame h f b s) (by decide)

theorem portHeard_sameArb (m : Master) (s : State) : SameArb s (portHeard m s) := by
  cases m with
  | front =>
    exact (setStation_sameArb _ _ _).trans
      ⟨⟨rfl, rfl, rfl, rfl, rfl, rfl, rfl, fun _ _ => rfl, fun _ => rfl⟩, rfl, fun _ => ⟨rfl, rfl⟩⟩
  | chassis => exact (setStation_sameArb _ _ _).trans (restartIdle_sameArb _)
  | service => exact (setStation_sameArb _ _ _).trans (restartIdle_sameArb _)

theorem arrive_keepsArb (m : Master) {k : State → State} (hk : KeepsArb k) : KeepsArb (arrive m k) := by
  intro s a
  cases m with
  | front => exact Arbitrated.ite _ a (hk _ (a.congr (portHeard_sameArb _ _)))
  | chassis => exact hk _ ((wake_keepsArb _ a).congr (portHeard_sameArb _ _))
  | service => exact hk _ ((wake_keepsArb _ a).congr (portHeard_sameArb _ _))

theorem takeRequest_keepsArb (h : ReqHdr) (allowed : List Master) {body : State → State} (hk : KeepsArb body) :
    KeepsArb (takeRequest h allowed body) := by
  intro s a
  unfold takeRequest
  refine Arbitrated.ite _ (a.congr (refuseEarly_sameArb _ _ _))
    (Arbitrated.ite _ (a.congr (refuseEarly_sameArb _ _ _)) (hk _ ?_))
  exact Arbitrated.ite _ a (a.congr (setStation_sameArb _ _ _))

theorem addressed_keepsArb (h : ReqHdr) {f : State → State} (hk : KeepsArb f) : KeepsArb (addressed h f) :=
  fun _ a => Arbitrated.ite _ a (hk _ a)

/-- A request whose own rule keeps a state arbitrated ends arbitrated. -/
theorem requestEvent_arbitrated {h : ReqHdr} {c : Instr} {allowed : List Master} {fwd : Bool}
    {body : State → State} (hk : KeepsArb body) {s : State} (hp : s.powered = true) (a : Arbitrated s) :
    Arbitrated (requestEvent h c allowed fwd body s) := by
  refine event_arbitrated hp (arrive_keepsArb _ (fun t b => ?_) _ a)
  exact takeRequest_keepsArb _ _ hk _ (b.congr (passDown_sameArb _ _ _ _))

end Sys2Proof.Machine
end

