-- ==== Sys2Proof/Laws/Claims.lean ====
section
/-! SUPPORT. The claim table through reactions and changes of the coupling state, and what a claim write reads as. -/

namespace Sys2Proof.Machine

/-- A new resolution leaves the claims alone. -/
theorem rearbitrate_claims (s : State) : (rearbitrate s).arb.claims = s.arb.claims :=
  rearbitrate_frame s .claims (by decide)

/-- A change of coupling state or motion that does not end the hold leaves the claims alone (R125). -/
theorem changeCoupling_claims (f : State → State) (s : State)
    (h : holdEffective s = true → holdEffective (f s) = true) :
    (changeCoupling f s).arb.claims = (f s).arb.claims := by
  have k := judgeRuns_frame (arbAfter s (f s)) .claims (by decide)
  simp only [Piece.same] at k
  unfold changeCoupling
  rw [k]
  unfold arbAfter
  rw [rearbitrate_claims]
  cases hs : holdEffective s with
  | false => simp
  | true => simp [h hs]

/-- The hold is not effective without the line. -/
theorem hold_needs_line {s : State} (h : s.lines.svcHold = false) : holdEffective s = false := by
  simp [holdEffective, h]

theorem completeBringUp_claims (s : State) : (completeBringUp s).arb.claims = s.arb.claims := by
  have h1 : ∀ t : State, t.arb.claims = s.arb.claims →
      (if t.cc.reprobe then
        mapCc (fun c => { c with reprobe := false }) (mapChain (fun c => { c with feedTry := true }) t)
      else t).arb.claims = s.arb.claims := by
    intro t ht; split <;> simpa using ht
  have h2 : ∀ t : State, t.arb.claims = s.arb.claims →
      (if t.cc.state = .probing then
        changeCoupling (mapCc fun c => { c with state := .serving, deadline := .stopped }) t
      else t).arb.claims = s.arb.claims := by
    intro t ht
    split
    · next hp =>
      rw [changeCoupling_claims]
      · simpa using ht
      · simp only [holdEffective, hp, parked, mapCc_lines, mapCc_cc]
        simp only [reduceCtorEq, decide_false, decide_true, Bool.true_or, Bool.or_true, Bool.false_or]
        exact id
    · exact ht
  have h3 : (clearSeq 2 (loadSeq 1 cycleMeasure .cycle
      (loadVerifyCycle (mapCc (completedCc s.plan.active.ident) s)))).arb.claims = s.arb.claims := by
    have a := clearSeq_frame 2 (loadSeq 1 cycleMeasure .cycle
      (loadVerifyCycle (mapCc (completedCc s.plan.active.ident) s))) .claims (by decide)
    have b := loadSeq_frame 1 cycleMeasure .cycle
      (loadVerifyCycle (mapCc (completedCc s.plan.active.ident) s)) .claims (by decide)
    have c := loadVerifyCycle_frame (mapCc (completedCc s.plan.active.ident) s) .claims (by decide)
    simp only [Piece.same] at a b c
    rw [a, b, c]; rfl
  unfold completeBringUp; dsimp only
  exact h1 _ (h2 _ h3)

theorem enterQuiet_claims {s : State} (h : s.lines.svcHold = false) : (enterQuiet s).arb.claims = s.arb.claims := by
  unfold enterQuiet; dsimp only
  have a := stopWhere_frame (fun q => decide (q.status ≠ .idle))
    (takeSnapshot (changeCoupling (mapCc fun c => { c with state := .quiet, motion := .parked }) s)) .claims (by decide)
  have b := takeSnapshot_frame (changeCoupling (mapCc fun c => { c with state := .quiet, motion := .parked }) s)
    .claims (by decide)
  simp only [Piece.same] at a b
  rw [a, b, changeCoupling_claims]
  · rfl
  · simp [hold_needs_line h]

/-- A part that goes QUIET has no hold line asserted, no claim and no holder (R63). -/
theorem quiet_reaction {s : State} (h : nextReaction s = some .quiet) :
    s.cc.state = .localAwake ∧ localConditions s = false := by
  unfold nextReaction at h
  simp only [Option.orElse_eq_orElse, Option.orElse_eq_or, Option.or_eq_some_iff, Option.map_eq_some_iff,
    reduceCtorEq, and_false, exists_false, false_or] at h
  grind

/-- The reactions of an event leave the claim table alone. -/
theorem react_claims (k : Nat) (s : State) : (react k s).arb.claims = s.arb.claims := by
  refine react_induct (P := fun t => t.arb.claims = s.arb.claims) ?_ (fun _ _ h => h) k s rfl
  intro r t ht hr
  rw [← ht]
  cases r with
  | complete =>
    have k := completeBringUp_claims t
    simpa only [runReaction] using k
  | quiet =>
    have hq : t.lines.svcHold = false := by
      have := (quiet_reaction hr).2
      simp only [localConditions, Bool.or_eq_false_iff] at this
      exact this.2
    have k := enterQuiet_claims hq
    simpa only [runReaction] using k
  | storeDone n =>
    have k := finishStep_frame n t .claims (by decide)
    simpa only [Piece.same, runReaction] using k
  | relit n =>
    have k := reach_frame n true t .claims (by decide)
    simpa only [Piece.same, runReaction] using k
  | convert n =>
    have k := (releaseSource_frame n t).join (c := seqPieces) (setStatus_frame n .waitLit _) (by decide) (by decide)
      .claims (by decide)
    simpa only [Piece.same, runReaction] using k
  | skipCheck n =>
    have k := finishStep_frame n t .claims (by decide)
    simpa only [Piece.same, runReaction] using k
  | gateCloses n =>
    have k := setStatus_frame n .pausedDemand t .claims (by decide)
    simpa only [Piece.same, runReaction] using k
  | gateOpens n =>
    have k := reach_frame n false t .claims (by decide)
    simpa only [Piece.same, runReaction] using k
  | grant n =>
    have k := grantTo_frame n t .claims (by decide)
    simpa only [Piece.same, runReaction] using k
  | feed =>
    have k := enterFeeding_frame t .claims (by decide)
    simpa only [Piece.same, runReaction] using k

/-- An event leaves the claim table as its own effect made it. -/
theorem event_claims {s : State} (h : s.powered = true) (f : State → State) :
    (event f s).arb.claims = (f s).arb.claims := by
  rw [event_powered h]
  have k := settle_frame s (react Config.reactFuel (f s)) .claims (by decide)
  simp only [Piece.same] at k
  rw [k, react_claims]

/-! ## Reading a claim -/

theorem claimantIx_inj {c d : Claimant} (h : claimantIx c = claimantIx d) : c = d := by
  revert h; cases c <;> cases d <;> decide

theorem claimAt_congr {s t : State} (h : t.arb.claims = s.arb.claims) (c : Claimant) (f : Nat) :
    claimAt t c f = claimAt s c f := by
  unfold claimAt; rw [h]

/-- A claim write is read back, and every other place of the table is as before (R106). -/
theorem claimAt_setClaim (c d : Claimant) (f g : Nat) (v : Option ClaimVal) (s : State) :
    claimAt (setClaim c f v s) d g = if d = c ∧ g = f ∧ f < 16 then v else claimAt s d g := by
  by_cases hf : f < 16
  · by_cases hg : g < 16
    · by_cases hd : d = c
      · subst hd
        by_cases hgf : g = f
        · subst hgf; simp [claimAt, setClaim, hf]
        · have : ¬ f = g := fun e => hgf e.symm
          simp [claimAt, setClaim, hf, hg, hgf, Vector.getElem_set_ne _ _ this]
      · have : (claimantIx c).val ≠ (claimantIx d).val := fun e => hd (claimantIx_inj (Fin.ext e)).symm
        simp [claimAt, setClaim, hf, hg, hd, Vector.getElem_set_ne _ _ this]
    · have : ¬ g = f := fun e => hg (e ▸ hf)
      simp [claimAt, hg, this]
  · simp [setClaim, hf]

/-- Clearing a claimant's claims leaves none of his, and every claim of another (R112, R120). -/
theorem claimAt_clearClaims (c d : Claimant) (g : Nat) (s : State) :
    claimAt (clearClaims c s) d g = if d = c then none else claimAt s d g := by
  by_cases hd : d = c
  · subst hd; by_cases hg : g < 16 <;> simp [claimAt, clearClaims, hg]
  · have : (claimantIx c).val ≠ (claimantIx d).val := fun e => hd (claimantIx_inj (Fin.ext e)).symm
    by_cases hg : g < 16 <;> simp [claimAt, clearClaims, hg, hd, Vector.getElem_set_ne _ _ this]

end Sys2Proof.Machine
end

