-- ==== Sys2Proof/WellFormed.lean ====
section
/-! DEFINITION. When a command's operands are values the event can carry: a request argument fits the bytes
it takes on the line (R188), a measured value lies in the range its rule gives. -/

namespace Sys2Proof

/-- Fits one byte of a body (R188). -/
def fitsByte (n : Nat) : Bool := n < 256

/-- Fits two bytes of a body (R188). -/
def fitsWord (n : Nat) : Bool := n < 65536

/-- A header's SRC is four bits wide (11.9). -/
def ReqHdr.wf (h : ReqHdr) : Bool := h.src < 16

/-- Numbers of a calibration part fit their two bytes (R188). -/
def Calib.wf (c : Calib) : Bool :=
  fitsWord c.offset && fitsWord c.span && fitsWord c.low && fitsWord c.high

/-- Numbers of an interlock fit. -/
def Interlock.wf : Interlock → Bool
  | .senseOpened f => fitsByte f
  | .senseClosed f => fitsByte f
  | _ => true

/-- Numbers of a plan entry fit their bytes (R188). -/
def EntryArg.wf : EntryArg → Bool
  | .lamp e => e.bindings.all fun b => fitsByte b.fn && fitsByte b.level
  | .sensor e => (e.fn.all fitsByte) && (e.calib.all Calib.wf)
  | .actuator e =>
    (e.fn.all fitsByte) && (e.runLimit.all fitsByte) && (e.interlocks.all Interlock.wf) &&
      (e.link.all fun l => fitsByte l.counter && fitsByte l.home && fitsWord l.low && fitsWord l.high)

/-- Level of a claim fits its byte. -/
def LevelArg.wf : LevelArg → Bool
  | .dflt => true
  | .num n => fitsByte n

/-- FAULT_CLEAR's argument fits its byte. -/
def ClearTarget.wf : ClearTarget → Bool
  | .channel n => fitsByte n
  | .all => true

/-- Numbers of a PROBE_RUN fit their bytes. -/
def RunArgs.wf (a : RunArgs) : Bool := fitsByte a.first && fitsByte a.count && fitsByte a.period

/-- A report's units behind fit their byte. -/
def Report.wf (r : Report) : Bool := fitsByte r.unitsBehind

/-- The largest frame is 48 bytes (00_scope section 3). -/
def frameFits (bytes : List Byte) : Bool := bytes.length ≤ 48

/-- The band of a dark CLASSIFY (R93): 0 for NONE, 127 for SHORT, 0 to 127 otherwise. -/
def bandFits (cls : LoadClass) (band : Nat) : Bool :=
  match cls with
  | .noLoad => band = 0
  | .short => band = 127
  | _ => band ≤ 127

/-- Well-formedness of a command. -/
def Instr.wellFormed : Instr → Bool
  | .supplyReset v => !v.cplAbove22 || v.cplPresent
  | .powerLoss => true
  | .cplSupPresenceChange _ => true
  | .supplyLowChange _ => true
  | .thermalWarnChange _ => true
  | .driveSupplyChange _ => true
  | .cplSenseAsserted => true
  | .cplSenseNegated => true
  | .rearSenseAsserted => true
  | .rearSenseNegated => true
  | .stopForceAsserted => true
  | .stopForceNegated => true
  | .svcHoldAsserted => true
  | .svcHoldNegated => true
  | .feedOvercurrent => true
  | .driverTrip _ => true
  | .switchPinChange _ _ => true
  | .encoderStep _ _ => true
  | .phaseError _ => true
  | .stallCurrentChange _ _ => true
  | .frameFirstByte _ _ => true
  | .frameReceived _ bytes => frameFits bytes
  | .frameSendStart _ => true
  | .frameSendEnd _ => true
  | .ping h => h.wf
  | .unitStatus h => h.wf
  | .unitAck h => h.wf
  | .funcStatus h fn => h.wf && fitsByte fn
  | .noticeFetch h => h.wf
  | .noticeFilter h _ => h.wf
  | .noticeResync h => h.wf
  | .recRead h tag => h.wf && fitsByte tag
  | .recList h _ start => h.wf && fitsByte start
  | .claim h fn _ level => h.wf && fitsByte fn && level.wf
  | .release h fn => h.wf && fitsByte fn
  | .releaseAll h => h.wf
  | .actTake h out => h.wf && fitsByte out
  | .actMoveDirection h out _ => h.wf && fitsByte out
  | .actMoveTarget h out target => h.wf && fitsByte out && fitsWord target
  | .actMoveEnergise h out => h.wf && fitsByte out
  | .actStop h out => h.wf && fitsByte out
  | .actGive h out => h.wf && fitsByte out
  | .unitAssign h number => h.wf && fitsByte number
  | .motion h _ => h.wf
  | .phase h => h.wf
  | .faultClear h target => h.wf && target.wf
  | .reprobe h => h.wf
  | .unitSet h _ => h.wf
  | .unitClear h => h.wf
  | .recRetire h tag => h.wf && fitsByte tag
  | .recEditOpenMask h tag _ => h.wf && fitsByte tag
  | .recEditCalibration h tag edit => h.wf && fitsByte tag && edit.all Calib.wf
  | .planOpen h => h.wf
  | .planWrite h index entry => h.wf && fitsByte index && entry.wf
  | .planCommit h ident => h.wf && fitsWord ident
  | .planDiscard h => h.wf
  | .planRead h _ index => h.wf && fitsByte index
  | .probeRun h sq args => h.wf && fitsByte sq && args.wf
  | .probeStep h sq => h.wf && fitsByte sq
  | .probeMask h sq => h.wf && fitsByte sq
  | .probeUnmask h sq => h.wf && fitsByte sq
  | .probeStop h sq => h.wf && fitsByte sq
  | .probeStatus h sq => h.wf && fitsByte sq
  | .hello r => r.wf
  | .unitAssignReply _ => true
  | .summary src r => decide (src < 16) && r.wf
  | .upstreamForward bytes => frameFits bytes
  | .portSilenceExpiry _ => true
  | .rearSilenceExpiry => true
  | .helloTimerExpiry => true
  | .helloRepeatExpiry => true
  | .summaryRepeatExpiry => true
  | .idleTimerExpiry => true
  | .debounceComplete => true
  | .bringUpDeadlineExpiry => true
  | .partingHoldExpiry => true
  | .commitCompletion => true
  | .cycleTimerExpiry _ => true
  | .flashPhaseChange => true
  | .onSample _ tenths => tenths ≤ 2000
  | .clearWindowExpiry _ => true
  | .switchDebounceExpiry _ => true
  | .runTimerExpiry _ => true
  | .stallTimerExpiry _ => true
  | .darkClassifyEnd cls band => bandFits cls band
  | .darkVerifyEnd _ => true
  | .checkEnd _ => true
  | .resistiveMeasureEnd response => response.all (· ≤ 3000)

end Sys2Proof
end

