-- ==== Sys2Proof/Laws/PerInstr.lean ====
section
/-! SUPPORT. Statements made per command, one lemma per constructor. -/

namespace Sys2Proof.Laws.HeaderFits

/-- The SRC of the header of a well-formed request command is a nibble (11.9, R188). -/
def Statement (c : Instr) : Prop :=
  c.wellFormed = true → ∀ h allowed, Machine.requestParts c = some (h, allowed) → h.src < 16

/-- A command that is no request. -/
theorem of_none {c : Instr} (hn : Machine.requestParts c = none) : Statement c := by
  intro _ h a hp
  rw [hn] at hp
  cases hp

/-- A request whose well-formedness holds its header's. -/
theorem of_header {c : Instr} {h : ReqHdr} {a : List Master} (hp : Machine.requestParts c = some (h, a))
    (hw : c.wellFormed = true → h.wf = true) : Statement c := by
  intro w h' a' hp'
  rw [hp] at hp'
  cases hp'
  exact of_decide_eq_true (hw w)

theorem supplyReset (v : SupplyView) : Statement (.supplyReset v) := of_none rfl
theorem powerLoss : Statement .powerLoss := of_none rfl
theorem cplSupPresenceChange (present : Bool) : Statement (.cplSupPresenceChange present) := of_none rfl
theorem supplyLowChange (low : Bool) : Statement (.supplyLowChange low) := of_none rfl
theorem thermalWarnChange (warn : Bool) : Statement (.thermalWarnChange warn) := of_none rfl
theorem driveSupplyChange (present : Bool) : Statement (.driveSupplyChange present) := of_none rfl
theorem cplSenseAsserted : Statement .cplSenseAsserted := of_none rfl
theorem cplSenseNegated : Statement .cplSenseNegated := of_none rfl
theorem rearSenseAsserted : Statement .rearSenseAsserted := of_none rfl
theorem rearSenseNegated : Statement .rearSenseNegated := of_none rfl
theorem stopForceAsserted : Statement .stopForceAsserted := of_none rfl
theorem stopForceNegated : Statement .stopForceNegated := of_none rfl
theorem svcHoldAsserted : Statement .svcHoldAsserted := of_none rfl
theorem svcHoldNegated : Statement .svcHoldNegated := of_none rfl
theorem feedOvercurrent : Statement .feedOvercurrent := of_none rfl
theorem driverTrip (ch : Fin 24) : Statement (.driverTrip ch) := of_none rfl
theorem switchPinChange (i : Fin 10) (closed : Bool) : Statement (.switchPinChange i closed) := of_none rfl
theorem encoderStep (c : Fin 2) (phase : Phase) : Statement (.encoderStep c phase) := of_none rfl
theorem phaseError (c : Fin 2) : Statement (.phaseError c) := of_none rfl
theorem stallCurrentChange (o : Fin 6) (above : Bool) : Statement (.stallCurrentChange o above) := of_none rfl
theorem frameFirstByte (p : Port) (b : Byte) : Statement (.frameFirstByte p b) := of_none rfl
theorem frameReceived (p : Port) (bytes : List Byte) : Statement (.frameReceived p bytes) := of_none rfl
theorem frameSendStart (p : Port) : Statement (.frameSendStart p) := of_none rfl
theorem frameSendEnd (p : Port) : Statement (.frameSendEnd p) := of_none rfl
theorem ping (h : ReqHdr) : Statement (.ping h) := of_header rfl id
theorem unitStatus (h : ReqHdr) : Statement (.unitStatus h) := of_header rfl id
theorem unitAck (h : ReqHdr) : Statement (.unitAck h) := of_header rfl id
theorem funcStatus (h : ReqHdr) (fn : Nat) : Statement (.funcStatus h fn) :=
  of_header rfl fun w => by simp_all [Instr.wellFormed]
theorem noticeFetch (h : ReqHdr) : Statement (.noticeFetch h) := of_header rfl id
theorem noticeFilter (h : ReqHdr) (set : Option Filter) : Statement (.noticeFilter h set) :=
  of_header rfl fun w => by simp_all [Instr.wellFormed]
theorem noticeResync (h : ReqHdr) : Statement (.noticeResync h) := of_header rfl id
theorem recRead (h : ReqHdr) (tag : Nat) : Statement (.recRead h tag) :=
  of_header rfl fun w => by simp_all [Instr.wellFormed]
theorem recList (h : ReqHdr) (kind : Option RecKind) (start : Nat) : Statement (.recList h kind start) :=
  of_header rfl fun w => by simp_all [Instr.wellFormed]
theorem claim (h : ReqHdr) (fn : Nat) (mode : Option ClaimMode) (level : LevelArg) : Statement (.claim h fn mode level) :=
  of_header rfl fun w => by simp_all [Instr.wellFormed]
theorem release (h : ReqHdr) (fn : Nat) : Statement (.release h fn) :=
  of_header rfl fun w => by simp_all [Instr.wellFormed]
theorem releaseAll (h : ReqHdr) : Statement (.releaseAll h) := of_header rfl id
theorem actTake (h : ReqHdr) (out : Nat) : Statement (.actTake h out) :=
  of_header rfl fun w => by simp_all [Instr.wellFormed]
theorem actMoveDirection (h : ReqHdr) (out : Nat) (dir : RunDir) : Statement (.actMoveDirection h out dir) :=
  of_header rfl fun w => by simp_all [Instr.wellFormed]
theorem actMoveTarget (h : ReqHdr) (out : Nat) (target : Nat) : Statement (.actMoveTarget h out target) :=
  of_header rfl fun w => by simp_all [Instr.wellFormed]
theorem actMoveEnergise (h : ReqHdr) (out : Nat) : Statement (.actMoveEnergise h out) :=
  of_header rfl fun w => by simp_all [Instr.wellFormed]
theorem actStop (h : ReqHdr) (out : Nat) : Statement (.actStop h out) :=
  of_header rfl fun w => by simp_all [Instr.wellFormed]
theorem actGive (h : ReqHdr) (out : Nat) : Statement (.actGive h out) :=
  of_header rfl fun w => by simp_all [Instr.wellFormed]
theorem unitAssign (h : ReqHdr) (number : Nat) : Statement (.unitAssign h number) :=
  of_header rfl fun w => by simp_all [Instr.wellFormed]
theorem motion (h : ReqHdr) (value : Option Motion) : Statement (.motion h value) :=
  of_header rfl fun w => by simp_all [Instr.wellFormed]
theorem phase (h : ReqHdr) : Statement (.phase h) := of_header rfl id
theorem faultClear (h : ReqHdr) (target : ClearTarget) : Statement (.faultClear h target) :=
  of_header rfl fun w => by simp_all [Instr.wellFormed]
theorem reprobe (h : ReqHdr) : Statement (.reprobe h) := of_header rfl id
theorem unitSet (h : ReqHdr) (mode : Option ArbMode) : Statement (.unitSet h mode) :=
  of_header rfl fun w => by simp_all [Instr.wellFormed]
theorem unitClear (h : ReqHdr) : Statement (.unitClear h) := of_header rfl id
theorem recRetire (h : ReqHdr) (tag : Nat) : Statement (.recRetire h tag) :=
  of_header rfl fun w => by simp_all [Instr.wellFormed]
theorem recEditOpenMask (h : ReqHdr) (tag : Nat) (set : Bool) : Statement (.recEditOpenMask h tag set) :=
  of_header rfl fun w => by simp_all [Instr.wellFormed]
theorem recEditCalibration (h : ReqHdr) (tag : Nat) (edit : Option Calib) : Statement (.recEditCalibration h tag edit) :=
  of_header rfl fun w => by simp_all [Instr.wellFormed]
theorem planOpen (h : ReqHdr) : Statement (.planOpen h) := of_header rfl id
theorem planWrite (h : ReqHdr) (index : Nat) (entry : EntryArg) : Statement (.planWrite h index entry) :=
  of_header rfl fun w => by simp_all [Instr.wellFormed]
theorem planCommit (h : ReqHdr) (ident : Nat) : Statement (.planCommit h ident) :=
  of_header rfl fun w => by simp_all [Instr.wellFormed]
theorem planDiscard (h : ReqHdr) : Statement (.planDiscard h) := of_header rfl id
theorem planRead (h : ReqHdr) (copy : Option PlanCopy) (index : Nat) : Statement (.planRead h copy index) :=
  of_header rfl fun w => by simp_all [Instr.wellFormed]
theorem probeRun (h : ReqHdr) (sq : Nat) (args : RunArgs) : Statement (.probeRun h sq args) :=
  of_header rfl fun w => by simp_all [Instr.wellFormed]
theorem probeStep (h : ReqHdr) (sq : Nat) : Statement (.probeStep h sq) :=
  of_header rfl fun w => by simp_all [Instr.wellFormed]
theorem probeMask (h : ReqHdr) (sq : Nat) : Statement (.probeMask h sq) :=
  of_header rfl fun w => by simp_all [Instr.wellFormed]
theorem probeUnmask (h : ReqHdr) (sq : Nat) : Statement (.probeUnmask h sq) :=
  of_header rfl fun w => by simp_all [Instr.wellFormed]
theorem probeStop (h : ReqHdr) (sq : Nat) : Statement (.probeStop h sq) :=
  of_header rfl fun w => by simp_all [Instr.wellFormed]
theorem probeStatus (h : ReqHdr) (sq : Nat) : Statement (.probeStatus h sq) :=
  of_header rfl fun w => by simp_all [Instr.wellFormed]
theorem hello (r : Report) : Statement (.hello r) := of_none rfl
theorem unitAssignReply (result : Result) : Statement (.unitAssignReply result) := of_none rfl
theorem summary (src : Nat) (r : Report) : Statement (.summary src r) := of_none rfl
theorem upstreamForward (bytes : List Byte) : Statement (.upstreamForward bytes) := of_none rfl
theorem portSilenceExpiry (m : Master) : Statement (.portSilenceExpiry m) := of_none rfl
theorem rearSilenceExpiry : Statement .rearSilenceExpiry := of_none rfl
theorem helloTimerExpiry : Statement .helloTimerExpiry := of_none rfl
theorem helloRepeatExpiry : Statement .helloRepeatExpiry := of_none rfl
theorem summaryRepeatExpiry : Statement .summaryRepeatExpiry := of_none rfl
theorem idleTimerExpiry : Statement .idleTimerExpiry := of_none rfl
theorem debounceComplete : Statement .debounceComplete := of_none rfl
theorem bringUpDeadlineExpiry : Statement .bringUpDeadlineExpiry := of_none rfl
theorem partingHoldExpiry : Statement .partingHoldExpiry := of_none rfl
theorem commitCompletion : Statement .commitCompletion := of_none rfl
theorem cycleTimerExpiry (n : Fin 4) : Statement (.cycleTimerExpiry n) := of_none rfl
theorem flashPhaseChange : Statement .flashPhaseChange := of_none rfl
theorem onSample (ch : Fin 24) (tenths : Nat) : Statement (.onSample ch tenths) := of_none rfl
theorem clearWindowExpiry (ch : Fin 24) : Statement (.clearWindowExpiry ch) := of_none rfl
theorem switchDebounceExpiry (i : Fin 10) : Statement (.switchDebounceExpiry i) := of_none rfl
theorem runTimerExpiry (o : Fin 6) : Statement (.runTimerExpiry o) := of_none rfl
theorem stallTimerExpiry (o : Fin 6) : Statement (.stallTimerExpiry o) := of_none rfl
theorem darkClassifyEnd (cls : LoadClass) (band : Nat) : Statement (.darkClassifyEnd cls band) := of_none rfl
theorem darkVerifyEnd (cls : LoadClass) : Statement (.darkVerifyEnd cls) := of_none rfl
theorem checkEnd (result : CheckResult) : Statement (.checkEnd result) := of_none rfl
theorem resistiveMeasureEnd (response : Option Nat) : Statement (.resistiveMeasureEnd response) := of_none rfl

end Sys2Proof.Laws.HeaderFits
end

