-- ==== Sys2Proof/Laws/Shape.lean ====
section
/-! SUPPORT. What a command can answer with, whichever it is: every meaning answers a next state of one of a few
shapes. -/

namespace Sys2Proof.Machine

/-- The pieces an outside level can change while the part is unpowered (log entry 5). -/
def levelPieces : List Piece := [.lines, .driveSupply, .inputs, .counters]

/-- The shapes of the state that a command makes of `s`. -/
inductive Shape (s : State) : State → Prop where
  /-- The command finds nothing to do. -/
  | same : Shape s s
  /-- One event of a powered part. -/
  | event (u : State) : s.powered = true → Shape s (settle s (react Config.reactFuel u))
  /-- The event of the parting hold's expiry, after which the FRONT queue is reset (R36). -/
  | parting (u : State) : s.powered = true → Shape s (resetFrontQueue (settle s (react Config.reactFuel u)))
  /-- A level outside an unpowered part. -/
  | level (t : State) : s.powered = false → Frame levelPieces s t → Shape s t
  /-- The loss of power. -/
  | loss : Shape s { s with powered := false }
  /-- A supply reset. -/
  | reset (v : SupplyView) : Shape s (supplyReset v s)

theorem shape_event (f : State → State) (s : State) : Shape s (event f s) := by
  cases h : s.powered with
  | true => rw [event_powered h]; exact .event _ h
  | false => rw [event_unpowered h]; exact .same

theorem shape_request (h : ReqHdr) (c : Instr) (allowed : List Master) (fwd : Bool) (body : State → State)
    (s : State) : Shape s (requestEvent h c allowed fwd body s) := shape_event _ _

theorem shape_line {set : State → State} {f : State → State → State} {s : State}
    (h : Frame levelPieces s (set s)) : Shape s (lineEvent set f s) := by
  unfold lineEvent
  cases hp : s.powered with
  | true => simpa only [if_true] using shape_event (fun old => f old (set old)) s
  | false => simpa only [Bool.false_eq_true, if_false] using Shape.level _ hp h

theorem mapLines_frame (f : Lines → Lines) (s : State) : Frame levelPieces s (mapLines f s) := by
  refine Frame.mono (a := [.lines]) ?_ (by decide)
  intro p hp; cases p <;> simp_all [Piece.same, line, mapLines]

theorem shape_mapLines (l : Lines → Lines) (f : State → State → State) (s : State) :
    Shape s (lineEvent (mapLines l) f s) := shape_line (mapLines_frame l s)

theorem shape_presence (p : Bool) (s : State) : Shape s (presenceChange p s) := by
  unfold presenceChange; split
  · exact .same
  · exact shape_mapLines _ _ _

theorem shape_driveSupply (p : Bool) (s : State) : Shape s (driveSupplyChange p s) := by
  refine shape_line (Frame.mono (a := [.driveSupply]) ?_ (by decide))
  intro q hq; cases q <;> simp_all [Piece.same, line]

theorem shape_switchPin (i : Fin 10) (closed : Bool) (s : State) : Shape s (switchPin i closed s) := by
  unfold switchPin; split
  · exact .same
  · exact shape_line ((setInput_frame _ _ _).mono (by decide))

theorem shape_encoder (c : Fin 2) (p : Phase) (s : State) : Shape s (encoderStep c p s) :=
  shape_line ((setCounter_frame _ _ _).mono (by decide))

theorem shape_phaseError (c : Fin 2) (s : State) : Shape s (phaseError c s) := by
  unfold phaseError; dsimp only
  exact shape_line ((setCounter_frame _ _ _).mono (by decide))

theorem shape_partingHold (s : State) : Shape s (partingHold s) := by
  unfold partingHold; split
  · next h =>
    have hp : s.powered = true := by
      revert h; cases s.powered <;> simp
    rw [event_powered hp]
    exact .parting _ hp
  · exact .same

/-- Every command answers a next state of one of the shapes. -/
theorem exec_shape (c : Instr) (s : State) : ∃ t, exec c s = .next t ∧ Shape s t := by
  cases c
  case supplyReset v => exact ⟨_, rfl, .reset v⟩
  case powerLoss => exact ⟨_, rfl, .loss⟩
  case cplSupPresenceChange p => exact ⟨_, rfl, shape_presence _ _⟩
  case supplyLowChange low => exact ⟨_, rfl, shape_mapLines _ _ _⟩
  case thermalWarnChange w => exact ⟨_, rfl, shape_mapLines _ _ _⟩
  case driveSupplyChange p => exact ⟨_, rfl, shape_driveSupply _ _⟩
  case cplSenseAsserted => exact ⟨_, rfl, shape_mapLines _ _ _⟩
  case cplSenseNegated => exact ⟨_, rfl, shape_mapLines _ _ _⟩
  case rearSenseAsserted => exact ⟨_, rfl, shape_mapLines _ _ _⟩
  case rearSenseNegated => exact ⟨_, rfl, shape_mapLines _ _ _⟩
  case stopForceAsserted => exact ⟨_, rfl, shape_mapLines _ _ _⟩
  case stopForceNegated => exact ⟨_, rfl, shape_mapLines _ _ _⟩
  case svcHoldAsserted => exact ⟨_, rfl, shape_mapLines _ _ _⟩
  case svcHoldNegated => exact ⟨_, rfl, shape_mapLines _ _ _⟩
  case switchPinChange i closed => exact ⟨_, rfl, shape_switchPin _ _ _⟩
  case encoderStep c p => exact ⟨_, rfl, shape_encoder _ _ _⟩
  case phaseError c => exact ⟨_, rfl, shape_phaseError _ _⟩
  case partingHoldExpiry => exact ⟨_, rfl, shape_partingHold _⟩
  all_goals exact ⟨_, rfl, shape_event _ _⟩

/-- A supply reset leaves the queue of commands alone. -/
theorem supplyReset_pending (v : SupplyView) (s : State) : (supplyReset v s).pending = s.pending := by
  unfold supplyReset afterReset; dsimp only
  have h1 : ∀ t : State, (reconcile (rearbitrate t)).pending = t.pending := fun t =>
    ((reconcile_frame (rearbitrate t)) .queue (by decide)).trans (rearbitrate_frame t .queue (by decide))
  rw [h1]
  split
  · exact (takeSnapshot_frame _ .queue (by decide)).trans rfl
  · rfl

end Sys2Proof.Machine
end

