-- ==== Sys2Proof/Laws/Settle.lean ====
section
/-! SUPPORT. What the end of an event establishes: the state is reconciled, and the notices that are due have been
sent. -/

namespace Sys2Proof.Machine

/-! ## Reconciliation -/

/-- What reconciliation gives is read from the active plan and the records alone (R55 to R57, R140). -/
theorem status_congr {s t : State} (h1 : t.plan.active = s.plan.active) (h2 : t.store = s.store) :
    statusTable t = statusTable s ∧ requiredMissing t = requiredMissing s ∧ anyLampFault t = anyLampFault s := by
  have hl : ∀ j, liveRecord t j = liveRecord s j := fun j => by simp only [liveRecord, liveTag, h2]
  have hf : ∀ f, fnStatusNow t f = fnStatusNow s f := fun f => by
    unfold fnStatusNow working actRecord sensorRecord lampRecord
    simp only [hl, h1]
  exact ⟨by simp only [statusTable, hf], by simp only [requiredMissing, hf], by simp only [anyLampFault, h2]⟩

/-- A frame that leaves alone what reconciliation reads and writes keeps a state reconciled. -/
theorem Reconciled.ofFrame {a : List Piece} {s t : State} (r : Reconciled s) (h : Frame a s t)
    (ha : ∀ p ∈ [Piece.planActive, .store, .fnStatus, .causes], p ∉ a) : Reconciled t := by
  have h1 := h .planActive (ha _ (by decide))
  have h2 := h .store (ha _ (by decide))
  have h3 := h .fnStatus (ha _ (by decide))
  have h4 := h .causes (ha _ (by decide))
  simp only [Piece.same] at h1 h2 h3 h4
  obtain ⟨r1, r2, r3⟩ := r
  obtain ⟨k1, k2, k3⟩ := status_congr h1 h2
  exact ⟨by rw [h3, r1, k1], by rw [h4, r2, k2], by rw [h4, r3, k3]⟩

/-- The table, MISSING_FUNCTION and LAMP_FAULT are those of the state once it is reconciled (R55, R57, R140). -/
theorem reconcile_reconciled (s : State) : Reconciled (reconcile s) := by
  obtain ⟨k1, k2, k3⟩ := status_congr (s := s) (t := reconcile s) (by simp [reconcile]) (by simp [reconcile])
  refine ⟨?_, ?_, ?_⟩
  · rw [k1]; simp only [reconcile]
  · rw [k2]; simp only [reconcile]
  · rw [k3]; simp only [reconcile]

/-- What follows the reconciliation of an event changes only queues, frames waiting and repeats. -/
def afterReconcile : List Piece := [.notice, .masterFrames, .repeats, .handed]

/-- The end of an event, after its reconciliation. -/
def finish (old s : State) : State :=
  let s := forEach masters noticeCheck (offerStatus old (offerHanded s))
  let s := if summaryDue old s then sendSummary s else s
  { s with work := ⟨[], false, false, false⟩ }

theorem settle_finish (old s : State) : settle old s = finish old (reconcile (purgeRear s)) := rfl

theorem finish_frame (old s : State) : Frame afterReconcile s (finish old s) := by
  have h1 : Frame afterReconcile s (offerStatus old (offerHanded s)) :=
    ((offerHanded_frame s).mono (by decide)).trans ((offerStatus_frame _ _).mono (by decide))
  have h2 : ∀ t, Frame afterReconcile s t → Frame afterReconcile s (forEach masters noticeCheck t) := fun t ht =>
    ht.trans (forEach_frame (fun m u => (noticeCheck_frame m u).mono (by decide)) _ _)
  have h3 : ∀ t, Frame afterReconcile s t → Frame afterReconcile s (if summaryDue old t then sendSummary t else t) :=
    fun t ht => Frame.ite _ (ht.trans ((sendSummary_frame _).mono (by decide))) ht
  have h4 : ∀ t, Frame afterReconcile t { t with work := ⟨[], false, false, false⟩ } := by
    intro t
    refine Frame.mono (a := [.handed]) ?_ (by decide)
    intro p hp; cases p <;> simp_all [Piece.same, line]
  unfold finish; dsimp only
  exact (h3 _ (h2 _ h1)).trans (h4 _)

/-- An event ends reconciled (log entry 11). -/
theorem settle_reconciled (old s : State) : Reconciled (settle old s) := by
  rw [settle_finish]
  exact (reconcile_reconciled _).ofFrame (finish_frame _ _) (by decide)

/-! ## Notices -/

theorem queueOf_setQueue (m k : Master) (q : NoticeQueue) (s : State) :
    queueOf (setQueue m q s) k = if k = m then q else queueOf s k := by
  cases m <;> cases k <;> simp [queueOf, setQueue, masterIx]

/-- Both states have the same queues, stations and records. -/
structure SameNotice (s t : State) : Prop where
  notice : t.notice = s.notice
  stations : t.port.stations = s.port.stations
  store : t.store = s.store

theorem SameNotice.ofFrame {a : List Piece} {s t : State} (h : Frame a s t)
    (ha : ∀ p ∈ [Piece.notice, .stations, .store], p ∉ a) : SameNotice s t :=
  ⟨h .notice (ha _ (by decide)), h .stations (ha _ (by decide)), h .store (ha _ (by decide))⟩

theorem passingCount_congr {s t : State} {m : Master} (hp : passes t = passes s) (hq : queueOf t m = queueOf s m) :
    passingCount t m = passingCount s m := by simp only [passingCount, hp, hq]

/-- Whether a queue is due is read from the queue and the records (R24). -/
theorem due_congr {s t : State} {m : Master} (hp : passes t = passes s) (hq : queueOf t m = queueOf s m) :
    due t m = due s m := by
  unfold due
  rw [passingCount_congr hp hq, hq]

/-- What leaves queues, stations and records alone keeps the notices sent. -/
theorem NoticeSent.congr {s t : State} (n : NoticeSent s) (h : SameNotice s t) : NoticeSent t := by
  intro m hd ha
  have hq : queueOf t m = queueOf s m := by simp only [queueOf, h.notice]
  have hp : passes t = passes s := by
    funext f e; cases e <;> simp only [passes, h.store]
  rw [due_congr hp hq] at hd
  have hs : station t m = station s m := by simp only [station, h.stations]
  rw [hq]
  exact n m hd (by rw [← hs]; exact ha)

/-- The notice of one master's queue has been sent, if it is due and the port attached (R29). -/
def SentTo (m : Master) (s : State) : Prop :=
  due s m = true → (station s m).attached = true → (queueOf s m).pendingSent = true

theorem passes_setQueue (m : Master) (q : NoticeQueue) (s : State) : passes (setQueue m q s) = passes s := by
  funext f e; cases e <;> rfl

theorem passes_pushFrame (p : Port) (x : OutFrame) (s : State) : passes (pushFrame p x s) = passes s := by
  funext f e; cases e <;> rfl

theorem queueOf_pushFrame (p : Port) (x : OutFrame) (s : State) (m : Master) :
    queueOf (pushFrame p x s) m = queueOf s m := rfl

theorem station_pushFrame (p : Port) (x : OutFrame) (s : State) (m : Master) :
    station (pushFrame p x s) m = station s m := rfl

theorem station_setQueue (k : Master) (q : NoticeQueue) (s : State) (m : Master) :
    station (setQueue k q s) m = station s m := rfl

/-- A check of one queue sends its notice where it is due, and keeps the others (R29). -/
theorem noticeCheck_sent (m k : Master) (s : State) (h : k = m ∨ SentTo k s) : SentTo k (noticeCheck m s) := by
  unfold noticeCheck; split
  · next hc =>
    intro hd ha
    by_cases e : k = m
    · rw [queueOf_setQueue, if_pos e]
    · have hk := h.resolve_left e
      rw [queueOf_setQueue, if_neg e, queueOf_pushFrame]
      refine hk ?_ ha
      rw [← hd]
      exact (due_congr ((passes_setQueue _ _ _).trans (passes_pushFrame _ _ _))
        (by rw [queueOf_setQueue, if_neg e, queueOf_pushFrame])).symm
  · next hc =>
    by_cases e : k = m
    · subst e
      intro hd ha
      cases hq : (queueOf s k).pendingSent with
      | true => rfl
      | false => simp [hd, ha, hq] at hc
    · exact h.resolve_left e

/-- A check of the three queues in order sends every notice that is due (R29). -/
theorem checks_noticeSent (s : State) : NoticeSent (forEach masters noticeCheck s) := by
  have e : forEach masters noticeCheck s = noticeCheck .service (noticeCheck .chassis (noticeCheck .front s)) := by
    simp only [forEach, masters, List.foldl]
  have h1 := noticeCheck_sent .front .front s (.inl rfl)
  have h2 : ∀ k, SentTo k (noticeCheck .front s) ∨ k = .chassis → SentTo k (noticeCheck .chassis (noticeCheck .front s)) :=
    fun k h => noticeCheck_sent .chassis k _ h.symm
  have h3 : ∀ k, SentTo k (noticeCheck .chassis (noticeCheck .front s)) ∨ k = .service →
      SentTo k (noticeCheck .service (noticeCheck .chassis (noticeCheck .front s))) :=
    fun k h => noticeCheck_sent .service k _ h.symm
  intro m
  rw [e]
  cases m with
  | front => exact h3 .front (.inl (h2 .front (.inl h1)))
  | chassis => exact h3 .chassis (.inl (h2 .chassis (.inr rfl)))
  | service => exact h3 .service (.inr rfl)

/-- An event ends with every due queue of an attached port noticed (R29). -/
theorem finish_noticeSent (old s : State) : NoticeSent (finish old s) := by
  have sum : ∀ t, NoticeSent t → NoticeSent (if summaryDue old t then sendSummary t else t) := by
    intro t n
    split
    · exact n.congr (SameNotice.ofFrame (sendSummary_frame t) (by decide))
    · exact n
  have wrk : ∀ t, NoticeSent t → NoticeSent { t with work := ⟨[], false, false, false⟩ } := fun t n => n.congr ⟨rfl, rfl, rfl⟩
  unfold finish; dsimp only
  exact wrk _ (sum _ (checks_noticeSent _))

theorem settle_noticeSent (old s : State) : NoticeSent (settle old s) := by
  rw [settle_finish]; exact finish_noticeSent _ _

end Sys2Proof.Machine
end

