-- ==== Sys2Proof/Tests/Slice0.lean ====
section
/-! SUPPORT. Tests: ill-formed commands the check refuses, one step of each family, the worked numbers of the spec, and
for each statement with hypotheses a state and operands that meet them, clause by clause. -/

namespace Sys2Proof.Tests

open Sys2Proof Sys2Proof.Machine

-- One theorem after the other: each small evaluation would else take a thread of its own.
set_option Elab.async false

/-! ## Small states -/

/-- The state a command leaves. -/
def after (c : Instr) (s : State) : State :=
  match exec c s with
  | .next t => t
  | .fault _ => s
  | .refused _ => s

/-- Headers of the three masters, and a broadcast of CHASSIS and of FRONT. -/
def hF : ReqHdr := ⟨.front, false, 1, 7⟩
def hC : ReqHdr := ⟨.chassis, false, 2, 8⟩
def hS : ReqHdr := ⟨.service, false, 3, 9⟩
def hAll : ReqHdr := ⟨.chassis, true, 0, 0⟩
def hAllF : ReqHdr := ⟨.front, true, 0, 0⟩

/-- The reset state in another coupling state. -/
def inState (c : CouplingState) : State := { State.reset with cc := { State.reset.cc with state := c } }

/-- Coupled, parked and numbered 1. -/
def serving : State :=
  { inState .serving with
    lines := { Lines.reset with cplSense := true, cplPresent := true }, chain := { Chain.reset true with own := 1 } }

/-- The same with the unit behind linked. -/
def linked : State := { serving with chain := { serving.chain with rear := .linked, silence := .running } }

/-- The same, feeding. -/
def feeding : State := { serving with chain := { serving.chain with rear := .feeding, helloTimer := .running } }

def lampRec : LampRec := ⟨.filament, 18, 18, false, [0], false, .present⟩
def sensorRec : SensorRec := ⟨true, 1420, 1420, .outside, 0, some 22, none, .valid⟩
def calib : Calib := ⟨1000, 500, 50, 150⟩
def actRec : ActRec := ⟨.motor, some 16, none, .idle, none, some 120, [.parked, .senseOpened 23], some ⟨0, 0, 3800⟩, .ready⟩
def unitRec : UnitRec := ⟨2, .serving, .complete, ⟨false, false, false, false, false, false⟩, 0, true⟩

/-- A state with records at the tags 0, 1, …. -/
def holding (cs : List Content) (s : State) : State := forEach cs createRec s

/-- A lamp, a sensor and an actuator record at the tags 0, 1 and 2. -/
def stocked : State := holding [.lamp 0 lampRec, .sensor 0 sensorRec, .actuator 0 actRec] serving

/-- SERVICE holds output 0. -/
def held : State := setOut 0 { Actuator.reset with holder := some .service } stocked

/-- SERVICE's hold with a DIRECTION run. -/
def moving : State := setOut 0 ⟨some .service, .runA, .direction, none, .running, some 120, .running, none⟩ stocked

/-- A channel's state changed. -/
def withChannel (f : LampChannel → LampChannel) (s : State) : State := setChannel 0 (f s.lamp.channels[0]) s

/-- Channel 0 driven at a level. -/
def lit (level : Nat) (s : State) : State := withChannel (fun c => { c with command := .steady level, driven := true }) s

/-- A sequencer that holds the source for one subject. -/
def probing (t : ProbeTarget) (k : StepKind) (s : State) : State :=
  { s with probe := { s.probe with
    seqs := s.probe.seqs.set 3 ⟨some ⟨t, [0], k, .sweep, .parked, 1, some ⟨0, 1, .up⟩⟩, .service, .stepping, some 0, 1,
      false, false, false, none, .stopped⟩
    holder := some 3 } }

/-- Sequencer 3 with a lamp program of one channel, in a status. -/
def lampSeq (mode : ProbeMode) (k : StepKind) (st : SeqStatus) (s : State) : State :=
  { s with probe := { s.probe with
    seqs := s.probe.seqs.set 3 ⟨some ⟨.lamp, [0], k, mode, .parked, 1, none⟩, .service, st, some 0, 1, false, false, false,
      none, .stopped⟩ } }

/-- The same with another request waiting for room. -/
def waiting (q : AllocReq) (s : State) : State := { s with store := { s.store with queue := [q] } }

/-- A request of the chain, and one of a sequencer that no store has room for. -/
def chainReq : AllocReq := ⟨.chain, .unit, 1, none⟩
def bigReq : AllocReq := ⟨.sq 3, .sensor 9, 61, none⟩

/-- Sequencer 3 waiting for room with a lamp result, and its request. -/
def lampReq : AllocReq := ⟨.sq 3, .lamp 5, 1, none⟩
def pended : State := waiting lampReq
  { serving with probe := { serving.probe with
    seqs := serving.probe.seqs.set 3 ⟨some ⟨.lamp, [5], .classify, .sweep, .parked, 1, none⟩, .service, .waitStore, some 5, 1,
      false, false, false, some (.lamp 5 .filament 18), .stopped⟩ } }

/-- A stepping program that waits to be stepped. -/
def steppable : State :=
  { serving with probe := { serving.probe with
    seqs := serving.probe.seqs.set 3 ⟨some ⟨.lamp, [0], .classify, .step, .parked, 1, none⟩, .service, .pausedDemand,
      some 0, 1, false, false, false, none, .stopped⟩ } }

/-! ## Well-formedness: the check refuses -/

theorem test_wf_supply : Instr.wellFormed (.supplyReset ⟨false, true, false, true⟩) = false := by decide
theorem test_wf_header : Instr.wellFormed (.ping ⟨.front, false, 16, 0⟩) = false := by decide
theorem test_wf_byte : Instr.wellFormed (.funcStatus hS 256) = false := by decide
theorem test_wf_word : Instr.wellFormed (.planCommit hS 65536) = false := by decide
theorem test_wf_level : Instr.wellFormed (.claim hS 0 (some .steady) (.num 256)) = false := by decide
theorem test_wf_clear : Instr.wellFormed (.faultClear hS (.channel 256)) = false := by decide
theorem test_wf_calib : Instr.wellFormed (.recEditCalibration hS 0 (some ⟨65536, 0, 0, 0⟩)) = false := by decide
theorem test_wf_entry : Instr.wellFormed (.planWrite hS 0 (.lamp ⟨[⟨256, 1⟩], false, none⟩)) = false := by decide
theorem test_wf_interlock :
    Instr.wellFormed (.planWrite hS 34 (.actuator ⟨.motor, none, none, [.senseOpened 256], none⟩)) = false := by decide
theorem test_wf_run : Instr.wellFormed (.probeRun hS 0 ⟨none, 256, 1, none, none, none, none, 1⟩) = false := by decide
theorem test_wf_report : Instr.wellFormed (.hello ⟨.serving, .complete, default, 256⟩) = false := by decide
theorem test_wf_summary : Instr.wellFormed (.summary 16 ⟨.serving, .complete, default, 0⟩) = false := by decide
theorem test_wf_frame : Instr.wellFormed (.frameReceived .rear (List.replicate 49 0)) = false := by decide +kernel
theorem test_wf_sample : Instr.wellFormed (.onSample 0 2001) = false := by decide
theorem test_wf_band : Instr.wellFormed (.darkClassifyEnd .led 128) = false := by decide
theorem test_wf_reading : Instr.wellFormed (.resistiveMeasureEnd (some 3001)) = false := by decide
theorem test_no_word_spells_a_command : decodeTableWord 8 0 = none := by decide

/-! ## One step of each family -/

theorem test_ping_wakes : (after (.ping hS) State.reset).cc.state = .localAwake := by decide +kernel
theorem test_ping_reply : (line (after (.ping hS) State.reset) .service).waiting.map (·.code) = [0x00#8, 0x30#8] := by
  decide +kernel
theorem test_claim : (after (.claim hF 0 (some .steady) .dflt) serving).lamp.channels[0].command = .steady 31 := by
  decide +kernel
theorem test_stop_force : (after .stopForceAsserted serving).lamp.channels[2].command = .steady 31 := by decide +kernel
theorem test_sample_short : (after (.onSample 0 1281) (lit 31 stocked)).lamp.channels[0].fault = .short := by
  decide +kernel
theorem test_sample_not_short : (after (.onSample 0 1280) (lit 31 stocked)).lamp.channels[0].fault = .normal := by
  decide +kernel
theorem test_move : (after (.actMoveDirection hS 0 .a) { held with input := { held.input with
    sense := held.input.sense.set 1 .opened } }).act.outs[0].run = .idle := by decide +kernel
theorem test_valve : (after (.actMoveEnergise hC 2) (setOut 2 { Actuator.reset with holder := some .chassis }
    (holding [.actuator 2 ⟨.valve, some 18, none, .idle, none, none, [], none, .ready⟩] serving))).act.outs[2].run =
      .energised := by decide +kernel
theorem test_classify : (lampRecord (after (.darkClassifyEnd .filament 18) (probing .lamp .classify serving)) 0).map
    (·.expected) = some 18 := by decide +kernel
theorem test_measure : (sensorRecord (after (.resistiveMeasureEnd (some 1420)) (probing .sensor .measure serving)) 0).map
    (·.value) = some 1420 := by decide +kernel
theorem test_plan_open : (after (.planOpen hS) serving).plan.staging = some Config.builtInPlan := by decide +kernel
theorem test_hello : (after (.hello ⟨.serving, .complete, default, 3⟩) feeding).chain.rear = .linked := by decide +kernel
theorem test_debounce : (after .debounceComplete
    { inState .mating with
      lines := { Lines.reset with cplSense := true, cplPresent := true }
      cc := { (inState .mating).cc with debounce := .running } }).cc.state = .probing := by decide +kernel
theorem test_frame_is_the_request :
    after (.frameReceived .service (frameBytes 2 ⟨0, 3, .request, 9, 0x01, []⟩)) State.reset =
      after (.ping hS) State.reset := by decide +kernel
theorem test_calibration : sensorValue (some calib) 1420 = 210 := by decide

/-! ## Witnesses: what each statement assumes is met, clause by clause -/

/-- A part that has taken a few commands, with one more waiting. -/
def busy (c : Instr) : State := { after (.claim hF 5 (some .flash) .dflt) feeding with pending := [c] }

theorem witness_StepRunsTheFrontCommand :
    { State.reset with pending := [Instr.powerLoss] }.pending = [.powerLoss] ∧ State.reset.pending = [] :=
  by decide +kernel

theorem witness_StepKeepsReconciled :
    Reconciled (busy .powerLoss) ∧ ∃ t, step (busy .powerLoss) = .next t :=
  ⟨by unfold Reconciled; decide +kernel, _, rfl⟩

theorem witness_StepKeepsClaimsFollowCoupling :
    coupled State.reset = false ∧ ∀ f : Fin 16, claimAt State.reset .front f = none ∧ claimAt State.reset .unit f = none :=
  by decide +kernel

theorem pended_noRecord : ∀ t : Fin 40, pended.store.records[t] = none := by decide +kernel

theorem witness_StepKeepsFeedInServing :
    FeedInServing (busy .feedOvercurrent) ∧ rearFeed (busy .feedOvercurrent) = true ∧ NumbersInRange pended ∧
      FeedInServing pended :=
  ⟨by unfold FeedInServing; decide +kernel, by decide +kernel,
    ⟨by decide +kernel, fun t _ _ h => by simp [pended_noRecord t] at h⟩, by unfold FeedInServing; decide +kernel⟩

theorem witness_StepKeepsTheRanges :
    (ChainBounded (busy .powerLoss) ∧ NoticeBounded (busy .powerLoss) ∧ CountsBounded (busy .powerLoss)) ∧
      StoreBounded pended ∧ pended.store.queue ≠ [] :=
  ⟨⟨by unfold ChainBounded; decide +kernel, by intro m; cases m <;> decide +kernel,
      by unfold CountsBounded; decide +kernel⟩,
    ⟨by decide +kernel, by decide +kernel, fun t _ _ _ h => by simp [pended_noRecord t] at h, by decide +kernel,
      by decide +kernel, fun q h => by rw [show pended.store.queue = [lampReq] from rfl, List.mem_singleton] at h; subst h; rfl,
      by unfold SequencersStand; decide +kernel, .inl (by decide +kernel)⟩, by decide +kernel⟩

theorem witness_StepKeepsArbitrated :
    (busy .powerLoss).powered = true ∧ Arbitrated (busy .powerLoss) ∧ (busy .powerLoss).lamp.timebase = .on :=
  by unfold Arbitrated; decide +kernel

theorem witness_StepKeepsNoticeSent :
    NoticeSent (busy .powerLoss) ∧ due (busy .powerLoss) .front = true :=
  ⟨by intro m; cases m <;> decide +kernel, by decide +kernel⟩

theorem witness_UnpoweredPartStandsStill :
    (after .powerLoss serving).powered = false ∧ isLevelEvent (.ping hS) = false ∧
      (isLevelEvent (.switchPinChange 2 true) = true ∧
        (after (.switchPinChange 2 true) (after .powerLoss serving)).input.inputs[2].pinClosed = true) ∧
      ∀ v, Instr.ping hS ≠ .supplyReset v :=
  ⟨by decide +kernel, rfl, by decide +kernel, by intro v; simp⟩

theorem witness_RequestsAreDiscardedOrRefused :
    requestParts (.ping hF) = some (hF, allMasters) ∧ State.reset.cc.state = .quiet ∧
      (inState .localAwake).cc.state = .localAwake ∧ Reaches hF serving ∧ Reaches hS (setOutstanding .service true serving) ∧
      (station (setOutstanding .service true serving) .service).outstanding = true ∧
      requestParts (.unitSet hC none) = some (hC, [.service]) ∧ hC.station ∉ [Master.service] :=
  by decide +kernel

theorem witness_ArrivalOfARequest :
    Reaches hF linked ∧ Reaches hAllF linked ∧ Reaches hS State.reset ∧ State.reset.cc.state = .quiet ∧
      linked.chain.down.length < 4 ∧ alwaysForwarded (.phase hF) = true :=
  by decide +kernel

theorem witness_OtherBroadcastsChangeNothing :
    requestParts (.actGive hAll 5) = some (hAll, allMasters) ∧ ignoresBroadcast (.actGive hAll 5) = true ∧ Taken hAll allMasters serving :=
  by decide +kernel

theorem witness_ReadingRequestsAnswer :
    Taken hS allMasters stocked ∧ 27 < 28 ∧ 39 < 40 ∧ 3 < 4 ∧ ∃ k, some RecKind.lamp = some k :=
  ⟨by decide +kernel, by decide, by decide, by decide, _, rfl⟩

theorem witness_RecReadAnswersTheRecord :
    Taken hS allMasters stocked ∧ (met hS (.recRead hS 2) stocked).store.records[2]? ≠ some none ∧
      (met hS (.recRead hS 39) stocked).store.records[39]? = some none :=
  by decide +kernel

theorem witness_PlanReadAnswersTheEntry :
    Taken hS [.service] serving ∧ (met hS (.planRead hS (some .staging) 39) serving).plan.staging = none ∧
      (23 < 24 ∧ 24 ≤ 33 ∧ 33 - 24 < 10 ∧ 34 ≤ 39 ∧ 39 - 34 < 6) :=
  by decide +kernel

theorem witness_NoticeFetchTakesPassingEntries :
    Taken hS allMasters stocked ∧ hS.broadcast = false ∧ (queueOf stocked .service).entries ≠ [] :=
  by decide +kernel

theorem witness_NoticeFilterResyncAndUnitAck :
    Taken hAll allMasters stocked ∧ Taken hS allMasters stocked ∧ hS.broadcast = false :=
  by decide +kernel

theorem witness_ChangesAreHandedToTheQueues :
    statusView (settle State.reset serving) ≠ statusView State.reset ∧ 2 ∈ stocked.work.handed ∧
      (queueOf (setQueue .front { NoticeQueue.reset with overflowed := true } serving) .front).overflowed = true :=
  by decide +kernel

theorem witness_ATurnInsideTheEvent :
    (setAllocQueue [chainReq] (setAllocQueue [] pended)).work.turned = true ∧
      (.unitStatus ∈ (queueOf (settle pended (setAllocQueue [chainReq] (setAllocQueue [] pended))) .service).entries) :=
  by decide +kernel

/-- A held lamp result of the channel whose record stands at tag 0, and its request. -/
def again : State :=
  waiting { lampReq with subject := .lamp 0 }
    (setSeq 3 { pended.probe.seqs[3] with held := some (.lamp 0 .filament 18) }
      { stocked with work := State.reset.work })

theorem witness_StepsAreWatched :
    stocked.work.statusTurned = true ∧ again.work.statusTurned = false ∧
      statusView (reconcile (createRec (.lamp 0 lampRec) serving)) ≠ statusView (reconcile serving) ∧
      statusView (reconcile (removeRec 0 again)) ≠ statusView (reconcile again) ∧
      statusView (reconcile (runReaction .feed serving)) ≠ statusView (reconcile serving) :=
  by decide +kernel

/-- The record goes and comes back in one event: the unit status is as it was, and the change is marked. -/
theorem test_retired_and_made_again :
    (releaseRec 0 again).store.queue = [] ∧ (releaseRec 0 again).work.statusTurned = true ∧
      (lampRecord (releaseRec 0 again) 0).isSome = true ∧
      statusTable (releaseRec 0 again) = statusTable again := by decide +kernel

theorem witness_StoreStepsBalanceTheCells :
    lowestFree stocked.store ≠ none ∧ (stocked.store.records[2]).isSome = true ∧
      (stocked.store.queue = [] ∧ 0 < freeTags stocked ∧ lampReq.cells ≤ freeCells stocked) ∧
      freeCells stocked < bigReq.cells ∧ pended.store.queue = [lampReq] ∧ fits pended lampReq = true ∧
      fits (waiting bigReq stocked) bigReq = false ∧ liveTag pended lampReq.subject = none ∧
      heldReleases pended lampReq = false ∧ (heldContent pended lampReq none).map (·.subject) = some lampReq.subject ∧
      lowestFree pended.store = some 0 :=
  by decide +kernel

theorem witness_Withdrawals :
    ([lampReq, chainReq].filter fun q => !decide (q.requester = .chain)).head? = some lampReq ∧
      ([lampReq, chainReq].filter fun q => !decide (q.requester = .sq 3)).head? ≠ some lampReq ∧
      (withdraw (fun r => decide (r = .sq 3)) pended).store.queue = [] :=
  by decide +kernel

theorem witness_RecRetireReleasesTheRecord :
    Taken hS [.service] stocked ∧ (recordAt (met hS (.recRetire hS 2) stocked) 2).any (fun r => !heldRecord r.content) = true ∧
      stocked.store.queue = [] ∧ recordAt (met hS (.recRetire hS 39) stocked) 39 = none ∧
      heldRecord (.actuator 0 { actRec with holder := some .service }) = true :=
  by decide +kernel

theorem witness_RecEditWritesTheOpenMask :
    Taken hS [.service] stocked ∧ liveTag (met hS (.recEditOpenMask hS 0 true) stocked) (.lamp 0) = some 0 ∧
      recordAt (met hS (.recEditOpenMask hS 0 true) stocked) 0 = some ⟨0, .lamp 0 lampRec⟩ ∧
      recordAt stocked 39 = none ∧ (recordAt stocked 1).map (·.content.kind) = some .sensor :=
  by decide +kernel

theorem witness_RecEditWritesTheCalibration :
    Taken hS [.service] stocked ∧ recordAt (met hS (.recEditCalibration hS 1 (some calib)) stocked) 1 = some ⟨0, .sensor 0 sensorRec⟩ ∧
      (calib.offset ≤ 3000 ∧ 1 ≤ calib.span ∧ calib.low ≤ calib.high) ∧
      (Content.sensor 0 (recalibrated (some calib) sensorRec)).cells ≤ freeCells stocked ∧ 0 < freeTags stocked ∧
      recordAt stocked 39 = none :=
  by decide +kernel

theorem witness_ClaimIsJudgedAndEntered :
    Taken hF allMasters serving ∧ (met hF (.claim hF 15 (some .steady) (.num 31)) serving).cc.state ≠ .mating ∧
      Taken hC allMasters (inState .mating) ∧ (met hC (.claim hC 2 (some .off) .dflt) (inState .mating)).cc.state = .mating ∧
      Taken hS allMasters serving ∧ holdEffective (met hS (.claim hS 10 (some .steady) .dflt) serving) = false :=
  by decide +kernel

theorem witness_ReleaseRemovesOneClaim :
    Taken hF allMasters serving ∧ claimAt (met hF (.release hF 15) serving) .front 15 = none ∧
      claimAt (met hF (.release hF 15) (setClaim .front 15 (some ⟨.off, .dflt⟩) serving)) .front 15 ≠ none :=
  by decide +kernel

theorem witness_ReleaseAllRemovesTheSendersClaims :
    Taken hAll allMasters serving ∧ Taken hF allMasters serving :=
  by decide +kernel

theorem witness_ActTakeAndGiveMoveTheHold :
    Taken hS allMasters stocked ∧ (actRecord stocked 0).map (·.state) = some .ready ∧ stocked.act.outs[0].holder = none ∧
      held.act.outs[0].holder = some hS.station ∧ hC.station ≠ .service ∧ actRecord stocked 5 = none ∧
      running moving 0 = true :=
  by decide +kernel

theorem witness_ActMoveStartsTheRun :
    Taken hS allMasters held ∧ (actRecord held 0).map (·.state) = some .ready ∧ held.act.outs[0].holder = some hS.station ∧
      held.act.outs[0].run = .idle ∧ driveSupply held = true ∧ referenced held 0 = false ∧
      (∀ i ∈ [Interlock.parked], interlockHolds held i = true) ∧ running moving 0 = true ∧
      outputOf (probing .actuator .check held).probe.seqs[3] = some 0 ∧ (probing .actuator .check held).probe.holder = some 3 ∧
      (probing .actuator .check held).act.outs[0].holder = some .service :=
  by decide +kernel

theorem witness_ActStopEndsTheRun :
    Taken hC allMasters moving ∧ running (met hC (.actStop hC 0) moving) 0 = true ∧ running held 0 = false ∧ actRecord held 5 = none :=
  by decide +kernel

theorem witness_UnitAssignNumbersTheUnit :
    Taken hF [.front] linked ∧ (met hF (.unitAssign hF 4) linked).cc.state = .serving ∧ rearFeed (met hF (.unitAssign hF 4) linked) = true ∧
      linked.chain.own = 1 ∧ linked.chain.rear = .linked ∧ (bar .number linked).chain.bar = .number ∧
      (bar .overcurrent linked).chain.rear = .barred ∧ (bar .overcurrent linked).chain.bar = .overcurrent ∧ 4 ≠ linked.chain.own ∧ feeding.chain.rear = .feeding ∧ (3 ≠ linked.chain.own ∧ 3 ≤ 3) ∧
      unitRecord (holding [.unit unitRec] linked) = some unitRec ∧ State.reset.chain.rear = .vacant :=
  by decide +kernel

theorem witness_MotionSetsMotion :
    Taken hF [.front] moving ∧ running (met hF (.motion hF (some .moving)) moving) 0 = true ∧ interlocksHold (mapCc (fun c => { c with motion := .moving }) moving) 0 = false :=
  by decide +kernel

theorem witness_TimebaseMovesTheFlashingLamps :
    Taken hAllF [.front] (busy .powerLoss) ∧ (busy .powerLoss).lamp.timebase ≠ .stopped ∧ serving.lamp.timebase = .stopped :=
  by decide +kernel

theorem witness_FaultClearClearsShorts :
    Taken hS [.front, .service] stocked ∧ (withChannel (fun c => { c with fault := .short }) stocked).lamp.channels[0].fault = .short ∧
      (lampRecord stocked 0).map (·.loadClass) ≠ some .noLoad ∧ ClearTarget.channel 23 = .channel (23 : Fin 24).val :=
  by decide +kernel

theorem witness_ReprobeStartsABringUp :
    Taken hF [.front, .service] serving ∧ (met hF (.reprobe hF) serving).plan.commit = none ∧
      rearFeed serving = false ∧ rearFeed (met hF (.reprobe hF) feeding) = true ∧ Taken hF [.front, .service] feeding ∧
      unitRecord (holding [.unit unitRec] linked) = some unitRec ∧ rearFeed linked = true ∧ linked.store.queue = [] ∧
      (met hF (.reprobe hF) serving).cc.state = .serving ∧ (met hF (.reprobe hF) serving).cc.motion = .parked ∧
      serving.cc.bringUp = false ∧ State.reset.cc.state ≠ .serving :=
  by decide +kernel

/-- At a REPROBE the load ends the run of an output without a function, and the feed's suspension loses the record. -/
theorem test_a_load_ends_the_run :
    (after (.reprobe hF) (setOut 5 ⟨some .service, .runA, .direction, none, .running, some 120, .stopped, none⟩ stocked)).act.outs[5].lastEnd =
      some .interlock ∧
    ((after (.reprobe hF) (holding [.unit unitRec] linked)).chain.rear = .sensed ∧
      (unitRecord (after (.reprobe hF) (holding [.unit unitRec] linked))).map (·.linked) = some false) := by decide +kernel

theorem witness_UnitClearResetsTheUnit :
    Taken hS [.service] serving ∧ (met hS (.unitClear hS) serving).cc.state = .serving ∧
      (met hS (.unitClear hS) serving).cc.motion = .parked ∧ (inState .probing).cc.state ≠ .localAwake :=
  by decide +kernel

theorem witness_StagingRequestsWriteTheStagingPlan :
    Taken hS [.service] serving ∧ (after (.planOpen hS) serving).plan.staging = some Config.builtInPlan ∧
      writeEntry Config.builtInPlan 40 (.lamp ⟨[], false, none⟩) = none ∧ lampEntryOk ⟨[⟨27, 31⟩], false, none⟩ = true ∧
      sensorEntryOk ⟨.switch, some 27, false, none⟩ = true ∧ actEntryOk ⟨.valve, none, none, [], none⟩ = true :=
  by decide +kernel

theorem witness_CommitWritesTheStoredPlan :
    Taken hS [.service] serving ∧ (met hS (.planCommit hS 65535) serving).cc.state = .serving ∧
      (2 ≤ 65535 ∧ 65535 ≠ serving.plan.active.ident ∧ 65535 ≠ serving.cc.inventoryIdent ∧ serving.plan.stored = none) ∧
      firstFailing Config.builtInPlan = none ∧ serving.plan.commit = none ∧ serving.cc.motion = .parked :=
  by decide +kernel

theorem witness_AValidStoredPlan (p : Plan) (c : Word16) :
    validPlan { State.reset with plan := { State.reset.plan with stored := some (StoredPlan.of p) } } = some p ∧
      (c ≠ Config.planCheck p →
        validPlan { State.reset with plan := { State.reset.plan with stored := some ⟨p, c⟩ } } = none) :=
  ⟨by simp [validPlan, StoredPlan.valid, StoredPlan.of], fun h => by simp [validPlan, StoredPlan.valid, h]⟩

theorem witness_ProbeRunAndStep :
    Taken hS [.service] steppable ∧ serving.cc.state ≠ .probing ∧
      (programOf ⟨some .lamp, 23, 1, some .up, some .classify, some .step, some .parked, 60⟩).isSome = true ∧
      programOf ⟨some .lamp, 24, 1, some .up, some .classify, some .step, some .parked, 1⟩ = none ∧
      howToTake (met hS (.probeStep hS 3) steppable) steppable.probe.seqs[3] true = .source ∧
      steppable.probe.seqs[3].status ≠ .idle ∧ serving.probe.seqs[3].status = .idle :=
  by decide +kernel

/-- What PROBE_RUN meets at a VERIFY of channel 0. -/
def runTake (m : ProbeMode) (s : State) : Take :=
  howToTake s ⟨some ⟨.lamp, [0], .verify, m, .parked, 1, none⟩, .service, .stepping, some 0, 1, false, false, false, none,
    .stopped⟩ false

theorem witness_HowASubjectIsTaken :
    runTake .sweep stocked = .source ∧ runTake .sweep (lit 31 stocked) = .lit ∧ runTake .step stocked = .pause ∧
      runTake .sweep serving = .noRecord :=
  by decide +kernel

theorem witness_ProbeMaskStopAndUnitSet :
    Taken hS [.service] steppable ∧ steppable.probe.seqs[3].status ≠ .idle ∧ steppable.probe.seqs[0].status = .idle :=
  by decide +kernel

theorem witness_SupplyEventsSetFlagsAndBudget :
    serving.powered = true ∧ serving.lines.cplPresent = true ∧ (inState .mating).cc.state = .mating ∧
      (inState .mating).lines.cplPresent = false ∧ coupled serving = true ∧ coupled State.reset = false ∧
      running moving 0 = true ∧ driveSupply moving = true ∧
      driveSupply { moving with lines := Lines.reset, act := { moving.act with batteryDrive := false } } = false :=
  by decide +kernel

theorem witness_CplSenseAssertedMatesOrReturns :
    State.reset.powered = true ∧ State.reset.cc.state = .quiet ∧ (after .cplSenseNegated serving).cc.state = .parting ∧
      (after .cplSenseNegated serving).cc.origin = .serving ∧ boundChannels serving ≠ [] ∧ serving.cc.state = .serving :=
  by decide +kernel

theorem witness_CplSenseNegatedReturnsOrParts :
    serving.cc.state = .serving ∧ rearFeed feeding = true ∧ (inState .mating).cc.state = .mating ∧
      noClaims (inState .mating) = true ∧ (inState .mating).cc.idleExpired = true ∧
      unitRecord (holding [.unit unitRec] linked) = some unitRec ∧ rearFeed (holding [.unit unitRec] linked) = true ∧
      (holding [.unit unitRec] linked).store.queue = [] ∧ rearFeed serving = false ∧
      (State.reset.plan.active.sensors[2]).wake = true :=
  by decide +kernel

/-- The return to QUIET from MATING, a sequencer at work, and the entry to PARTING from LINKED. -/
theorem test_return_and_parting :
    (after .cplSenseNegated (lampSeq .sweep .verify .pausedDemand (inState .mating))).cc.state = .quiet ∧
      (after .cplSenseNegated (lampSeq .sweep .verify .pausedDemand (inState .mating))).probe.seqs[3] = Sequencer.idle ∧
      (after .cplSenseNegated (inState .mating)).input.inputs[2].snapshot = some .unknown ∧
      (unitRecord (after .cplSenseNegated (holding [.unit unitRec] linked))).map (·.linked) = some false := by
  decide +kernel

theorem witness_RearSenseAndOvercurrentMoveTheRearState :
    State.reset.chain.rear = .vacant ∧ linked.chain.rear ≠ .vacant ∧ rearFeed linked = true ∧
      (holding [.unit unitRec] linked).chain.rear = .linked ∧ unitRecord (holding [.unit unitRec] linked) = some unitRec :=
  by decide +kernel

theorem neighbour_alone : ∀ t : Fin 40, t ≠ 0 → (holding [.unit unitRec] linked).store.records[t] = none := by
  decide +kernel

theorem witness_RearSenseNegatedReleasesTheUnitRecord :
    StoreBounded (holding [.unit unitRec] linked) ∧
      unitRecord (after .rearSenseNegated (holding [.unit unitRec] linked)) = none :=
  ⟨⟨by decide +kernel, by decide +kernel,
      fun t k a b ha hb _ => by
        have at0 (x : Fin 40) (r : Record) (h : (holding [.unit unitRec] linked).store.records[x] = some r) : x = 0 := by
          by_cases hx : x = 0
          · exact hx
          · simp [neighbour_alone x hx] at h
        rw [at0 t a ha, at0 k b hb],
      by decide +kernel, by decide +kernel,
      fun q h => by simp [show (holding [.unit unitRec] linked).store.queue = [] by decide +kernel] at h,
      by unfold SequencersStand; decide +kernel, .inr (by decide +kernel)⟩, by decide +kernel⟩

theorem witness_StopForceDrivesTheStopLamps :
    serving.lines.cplPresent = true ∧ (channelFns serving.plan.active 2).Nodup ∧
      stopLevel serving.plan.active 2 = some 31 ∧ FaultState.latched serving.lamp.channels[2].fault = false ∧
      State.reset.lines.cplPresent = false :=
  by decide +kernel

theorem witness_ServiceHoldBeginsAndEnds :
    State.reset.cc.state = .quiet ∧ serving.cc.state ≠ .quiet ∧
      holdEffective (after .svcHoldAsserted serving) = true :=
  by decide +kernel

theorem witness_SamplesAndTripsFindShortsAndOpens :
    (lit 31 stocked).lamp.channels[0].driven = true ∧ 1280 < 1281 ∧ (∀ n : Fin 4, waitsLit (lit 31 stocked) 0 n = false) ∧
      lampRecord (lit 31 stocked) 0 = some lampRec ∧ lampRec.expected ≠ 0 ∧
      decide (44 * 31 * 4 < 10 * 18 * 31) = true ∧ decide (45 * 31 * 4 < 10 * 18 * 31) = false ∧
      lampRecord serving 0 = none :=
  by decide +kernel

theorem witness_LitStepsEndWithTheSample :
    waitsLit (lampSeq .sweep .verify .waitLit (lit 31 stocked)) 0 3 = true ∧
      kindOf (lampSeq .sweep .verify .waitLit (lit 31 stocked)).probe.seqs[3] = some .verify ∧
      kindOf (lampSeq .sweep .classify .waitLit (lit 31 serving)).probe.seqs[3] = some .classify ∧
      (lit 31 serving).store.queue = [] ∧ hasRoom (lit 31 serving) 1 = true ∧ scaledBand 180 31 = 18 ∧
      lampRec.loadClass = .filament :=
  by decide +kernel

theorem witness_SwitchesSettleAndChange :
    State.reset.input.inputs[2].debounce = .running ∧ State.reset.input.inputs[2].settled = false ∧
      (after (.switchDebounceExpiry 2) State.reset).input.inputs[2].settled = true ∧
      (serving.plan.active.sensors[2]).cls = .switch ∧ hasRoom serving 1 = true ∧
      State.reset.input.inputs[2].pinClosed ≠ true ∧ State.reset.input.inputs[0].debounce = .stopped ∧
      (isPending pended .coupling = false ∧ pended.store.queue ≠ [] ∧ sensorRecord pended 2 = none) ∧
      isPending (waiting ⟨.coupling, .sensor 2, 1, none⟩ serving) .coupling = true ∧
      ({ serving.cc with heldSwitch := some ⟨2, true, 1, some 24⟩ }).heldSwitch ≠ none ∧ (2 : Fin 10) ≠ 3 :=
  by decide +kernel

/-- A switch input with a live record, in QUIET, its pin moved away from the settled level. -/
def switched (i : Fin 10) (fn : Nat) : State :=
  setInput i ⟨.opened, .running, true, some .opened, true⟩
    (holding [.sensor i { sensorRec with resistive := false, raw := 0, value := 0, fn := some fn }] State.reset)

/-- The home function's switch closes and homes its counter, the wake input's closes and wakes the part. -/
theorem test_homing_and_wake :
    (switched 4 26).input.sense[4] ≠ .closed ∧ (after (.switchDebounceExpiry 4) (switched 4 26)).input.sense[4] = .closed ∧
      (after (.switchDebounceExpiry 4) (switched 4 26)).input.counters[0].referenced = true ∧
      (after (.switchDebounceExpiry 4) (switched 4 26)).input.counters[1].referenced = false ∧
      (after (.switchDebounceExpiry 4) (switched 4 26)).cc.state = .quiet ∧
      (after (.switchDebounceExpiry 2) (switched 2 23)).cc.state = .localAwake := by decide +kernel

theorem witness_EncoderMovesTheCounter :
    counterOf moving 0 = some 0 ∧ counterOf moving 5 ≠ some 0 ∧ moving.act.outs[0].run = .runA ∧
      moving.act.outs[0].kind = .direction ∧ (moving.plan.active.acts[0]).link = some ⟨0, 26, 0, 3800⟩ ∧ 3800 ≤ 3800 ∧
      (setOut 0 { moving.act.outs[0] with kind := .target, target := some 1 } moving).act.outs[0].target = some 1 ∧
      targetMet { moving.act.outs[0] with kind := .target, target := some 1 } 0 = false ∧
      (after (.encoderStep 0 .b) moving).input.counters[0].count = 0 ∧
      liveTag moving (.actuator 0) = some 2 ∧ actRec.pos.isSome = true :=
  by decide +kernel

theorem witness_GuardsAndSupplyEndRuns :
    running moving 0 = true ∧ moving.act.outs[0].runTimer = .running ∧ moving.act.outs[0].stallTimer = .running ∧
      running moving 1 = false ∧ (actRecord moving 0).isSome = true :=
  by decide +kernel

theorem witness_FramesAreCollectedAndJudged :
    parseFrame .front [] = none ∧ frontDeaf State.reset = true ∧ State.reset.cc.state = .quiet ∧ serving.cc.state ≠ .quiet ∧
      (line (after (.frameFirstByte .service 0xC3) (after (.frameSendStart .service) (after (.ping hS) State.reset)))
        .service).collided = true :=
  by decide +kernel

theorem witness_FrameActsAsTheRequestItSpells :
    parseFrame .service (frameBytes 2 ⟨0, 3, .request, 9, 0x11, [4]⟩) = some ⟨0, 3, .request, 9, 0x11, [4]⟩ ∧
      requestOf (headerOf .service ⟨0, 3, .request, 9, 0x11, [4]⟩) 0x11 [4] = .request (.unitAssign hS 4) :=
  by decide +kernel

/-- A request of FRONT as received. -/
def fromFront (dest : Nat) (kind : FrameKind) (code : Byte) (payload : List Byte) : RxFrame :=
  ⟨dest, 1, kind, 7, code, payload⟩

theorem witness_FramesAreRouted :
    (parseFrame .front (frameBytes 0 (fromFront 3 .request 0x01 []))).map (·.dest) = some 3 ∧ frontDeaf linked = false ∧
      (linked.chain.own < 3 ∧ 3 ≤ 4) ∧ linked.chain.down.length < 4 ∧ serving.chain.rear ≠ .linked ∧
      (parseFrame .front (frameBytes 0 (fromFront 1 .notice 0x01 []))).map (·.kind) = some .notice ∧
      codeStations 0x7F = none ∧ codeStations 0x16 = some [.service] ∧ Master.front ∉ [Master.service] ∧
      requestOf hS 0x01 [0] = .badLength ∧ requestOf hF 0x13 [] = .request (.phase hF) ∧
      (line (after (.frameReceived .front (frameBytes 0 (fromFront 1 .request 0x01 [9]))) linked) .front).waiting.head?.map (·.code) =
        some (resultCode .badArg) :=
  by decide +kernel
theorem witness_LinesSendInTheirOrder :
    (line (after (.ping hS) State.reset) .service).waiting ≠ [] ∧ (line State.reset .service).waiting = [] ∧
      forwardQueue { linked with chain := { linked.chain with down := [.bytes []] } } .rear = [.bytes []] ∧
      (line (after (.frameSendStart .service) (after (.ping hS) State.reset)) .service).sending ≠ none :=
  by decide +kernel

theorem witness_FramesFromRearLinkAndPassUp :
    rearFeed feeding = true ∧ feeding.chain.rear ≠ .linked ∧ feeding.store.queue = [] ∧ hasRoom feeding 1 = true ∧
      linked.chain.rear = .linked ∧ linked.chain.up.length < 4 ∧
      4 ≤ { linked.chain with up := List.replicate 4 (.bytes []) }.up.length ∧
      unitRecord (holding [.unit unitRec] linked) = some unitRec ∧
      parseFrame .rear (frameBytes 0 (fromFront 1 .chain codeHello [])) = some (fromFront 1 .chain codeHello []) ∧
      parseFrame .rear (frameBytes 0 (fromFront 1 .reply (resultCode .done) [])) =
        some (fromFront 1 .reply (resultCode .done) []) ∧ resultOf (resultCode .done) = some .done ∧
      resultOf 0xFF = none :=
  by decide +kernel

theorem witness_PortSilenceEndsTheMastersLeases :
    (station (met hF (.ping hF) moving) .front).attached = true ∧ (station (met hF (.ping hF) moving) .front).silence = .running ∧
      (station State.reset .service).attached = false ∧ running moving 0 = true ∧
      moving.act.outs[0].holder = some .service ∧ serving.cc.state = .serving :=
  by decide +kernel

theorem witness_ChainTimers :
    linked.chain.rear = .linked ∧ linked.chain.silence = .running ∧ feeding.chain.helloTimer = .running ∧
      { linked.chain with helloRepeat := .running }.helloRepeat = .running ∧ linked.chain.summaryRepeat = .stopped ∧
      nextReaction { serving with chain := { serving.chain with rear := .sensed, feedTry := true } } = some .feed :=
  by decide +kernel

theorem witness_CouplingTimers :
    (inState .localAwake).cc.state = .localAwake ∧ noClaims (inState .localAwake) = true ∧ noHolder (inState .localAwake) = true ∧
      (inState .localAwake).probe.holder = none ∧ (∀ n : Fin 4, (inState .localAwake).probe.seqs[n].status = .idle) ∧
      { (inState .mating).cc with debounce := .running }.debounce = .running ∧ (inState .mating).plan.commit = none ∧
      { (inState .probing).cc with deadline := .running }.state = .probing ∧ (inState .mating).chain.own = 0 ∧
      pended.probe.seqs[3].status ≠ .idle ∧ boundChannels serving ≠ [] ∧
      boundChannels { serving with plan := { serving.plan with active := { serving.plan.active with
        lamps := Vector.replicate 24 default } } } = [] :=
  by decide +kernel

theorem witness_PartingHoldExpiryTearsDown :
    (after .cplSenseNegated moving).cc.state = .parting ∧ (after .cplSenseNegated moving).cc.partingHold = .running ∧
      serving.cc.state ≠ .parting :=
  by decide +kernel

theorem witness_SequencersStepAndApplyResults :
    (probing .lamp .classify serving).probe.holder = some 3 ∧ serving.probe.holder = none ∧
      lampOf (probing .lamp .classify serving).probe.seqs[3] = some 0 ∧
      kindOf (probing .lamp .classify serving).probe.seqs[3] = some .classify ∧
      lampOf (probing .lamp .verify stocked).probe.seqs[3] = some 0 ∧ lampRecord stocked 0 = some lampRec ∧
      outputOf (probing .actuator .check serving).probe.seqs[3] = some 0 ∧ hasRoom serving 3 = true ∧
      inputOf (probing .sensor .measure serving).probe.seqs[3] = some 0 ∧ (serving.plan.active.sensors[0]).cls ≠ .unused ∧
      serving.cc.bringUp = false ∧ serving.store.queue = [] :=
  by decide +kernel

/-- A part whose plan binds nothing. -/
def unbound (s : State) : State :=
  { s with plan := { s.plan with active := { s.plan.active with
    lamps := Vector.replicate 24 default, sensors := Vector.replicate 10 default, acts := Vector.replicate 6 default } } }

/-- The same, in a bring-up. -/
def probed : State := mapCc (fun c => { c with bringUp := true }) (unbound stocked)

theorem witness_ResultsReleasePendAndReshape :
    resultReleases (unbound stocked) (.lamp 0 .noLoad 0) = true ∧ stocked.store.queue = [] ∧
      liveTag stocked (.lamp 0) = some 0 ∧ liveTag serving (.lamp 0) = none ∧
      resultReleases serving (.lamp 0 .filament 18) = false ∧ pended.store.queue ≠ [] ∧
      liveTag pended (.lamp 0) = none ∧
      (probed.cc.bringUp = true ∧ resultReleases probed (.actuator 0 .short) = false ∧
        liveTag probed (.actuator 0) = some 2 ∧ (Content.actuator 0 actRec).cells ≠ entryCells probed (.actuator 0) ∧
        hasRoom probed (entryCells probed (.actuator 0)) = true) :=
  by decide +kernel

theorem witness_ReactionsRun :
    nextReaction linked = none ∧
      nextReaction (lampSeq .sweep .verify .waitSource stocked) = some (.grant 3) ∧
      nextReaction (lampSeq .sweep .verify .waitSource (lit 31 stocked)) = some (.convert 3) ∧
      nextReaction (lampSeq .sweep .verify .waitLit stocked) = some (.relit 3) ∧
      nextReaction (lampSeq .sweep .verify .pausedDemand stocked) = some (.gateOpens 3) ∧
      nextReaction (lampSeq .demand .verify .waitSource (mapCc (fun c => { c with motion := .moving }) stocked)) =
        some (.gateCloses 3) :=
  by decide +kernel

theorem witness_AStepEnds :
    (lampSeq .cycle .verify .stepping stocked).probe.seqs[3].remaining ≤ 1 ∧
      (after (.darkVerifyEnd .filament) (probing .lamp .verify stocked)).probe.seqs[3].status = .done :=
  by decide +kernel

end Sys2Proof.Tests
end

section
/-! How REC_READ judges its tag, and that it answers the record of a live one (R20). -/

namespace Sys2Proof.Machine

/-! ## Tags of a request -/

theorem asFin_of_lt {n k : Nat} (h : k < n) : asFin n k = some ⟨k, h⟩ := dif_pos h

theorem asFin_of_le {n k : Nat} (h : n ≤ k) : asFin n k = none := dif_neg (Nat.not_lt.mpr h)

/-! ## The image of a record -/

theorem imageOf_of_free {s : State} {t : Fin 40} (h : s.store.records[t] = none) : imageOf s t = none := by
  simp only [imageOf, h, Option.map_none]

theorem imageOf_of_live {s : State} {t : Fin 40} {r : Record} (h : s.store.records[t] = some r) :
    imageOf s t = some ⟨t, r, positionOf s r.content⟩ := by
  simp only [imageOf, h, Option.map_some]

/-! ## REC_READ -/

theorem doRecRead_of_outside {tag : Nat} (ht : 40 ≤ tag) (h : ReqHdr) (s : State) :
    doRecRead h tag s = reply h .badArg s := by
  simp only [doRecRead, asFin_of_le ht]

theorem doRecRead_of_free {tag : Nat} {s : State} (ht : tag < 40) (free : s.store.records[tag] = none) (h : ReqHdr) :
    doRecRead h tag s = reply h .notFound s := by
  have image : imageOf s ⟨tag, ht⟩ = none := imageOf_of_free free
  simp only [doRecRead, asFin_of_lt ht, image]

theorem doRecRead_of_live {tag : Nat} {s : State} {r : Record} (ht : tag < 40)
    (live : s.store.records[tag] = some r) (h : ReqHdr) :
    doRecRead h tag s = replyWith h .done (.record ⟨⟨tag, ht⟩, r, positionOf s r.content⟩) s := by
  have image : imageOf s ⟨tag, ht⟩ = some ⟨⟨tag, ht⟩, r, positionOf s r.content⟩ := imageOf_of_live live
  simp only [doRecRead, asFin_of_lt ht, image]

/-- Whichever reply REC_READ gives, the reply is all it changes. -/
theorem doRecRead_frame (h : ReqHdr) (tag : Nat) (s : State) : Frame [.masterFrames] s (doRecRead h tag s) := by
  unfold doRecRead
  split
  · exact reply_frame _ _ _
  · split
    · exact reply_frame _ _ _
    · exact replyWith_frame _ _ _ _

/-- The reply made on a part is the one frame its master lines gain, and none for a broadcast (R188, R189). -/
theorem replied_replyWith (h : ReqHdr) (r : Result) (b : Body) (w : State) : Replied h r b w (replyWith h r b w) :=
  answered_replyWith fun _ => rfl

theorem replied_reply (h : ReqHdr) (r : Result) (w : State) : Replied h r .empty w (reply h r w) :=
  replied_replyWith h r .empty w

/-- A REC_READ that is taken acts by its own rule on the part as it meets it. -/
theorem exec_recRead_of_taken {h : ReqHdr} {s : State} (taken : Taken h allMasters s) (tag : Nat) :
    exec (.recRead h tag) s =
      .next (settle s (react Config.reactFuel (doRecRead h tag (met h (.recRead h tag) s)))) :=
  congrArg Host.Outcome.next (requestEvent_taken taken (.recRead h tag) (doRecRead h tag))

/-- Settles O17, by the three cases of the tag: above 39, free, and live. -/
theorem recReadAnswersTheRecord : Obligations.RecReadAnswersTheRecord := by
  intro h tag s taken w
  refine ⟨doRecRead h tag w, exec_recRead_of_taken taken tag, doRecRead_frame h tag w, ?outside,
    fun ht => ⟨?free, ?live⟩⟩
  case outside =>
    intro above
    rw [doRecRead_of_outside above]
    exact replied_reply h .badArg w
  case free =>
    intro free
    rw [doRecRead_of_free ht free]
    exact replied_reply h .notFound w
  case live =>
    intro r live
    rw [doRecRead_of_live ht live]
    exact replied_replyWith h .done _ w

end Sys2Proof.Machine
end

section
/-! How RELEASE and RELEASE_ALL judge and change the claim table (R111, R112), and that the rest of the event leaves the
table as they made it. -/

namespace Sys2Proof.Machine

/-! ## The claim table up to the end of an event -/

theorem isLampFn_iff {fn : Nat} : isLampFn fn = true ↔ fn ≤ 15 := decide_eq_true_iff

theorem claimAt_rearbitrate (s : State) (d : Claimant) (g : Nat) : claimAt (rearbitrate s) d g = claimAt s d g :=
  claimAt_congr (rearbitrate_claims s) d g

theorem claimAt_reply (h : ReqHdr) (r : Result) (s : State) (d : Claimant) (g : Nat) :
    claimAt (reply h r s) d g = claimAt s d g :=
  claimAt_congr (reply_frame h r s .claims (by decide)) d g

/-- Neither the reactions nor the end of an event moves a claim. -/
theorem claimAt_settle_react (s u : State) (k : Nat) (d : Claimant) (g : Nat) :
    claimAt (settle s (react k u)) d g = claimAt u d g :=
  claimAt_congr ((settle_frame s (react k u) .claims (by decide)).trans (react_claims k u)) d g

/-! ## The answer to a change of claims -/

/-- The answer to a request that made the claim table of `v`: the channels resolved again, and the reply DONE. -/
def claimsAnswered (h : ReqHdr) (v : State) : State := reply h .done (rearbitrate v)

theorem claimAt_claimsAnswered (h : ReqHdr) (v : State) (d : Claimant) (g : Nat) :
    claimAt (claimsAnswered h v) d g = claimAt v d g :=
  (claimAt_reply h .done (rearbitrate v) d g).trans (claimAt_rearbitrate v d g)

theorem claimsAnswered_arbitrated (h : ReqHdr) (v : State) : Arbitrated (claimsAnswered h v) :=
  (rearbitrate_arbitrated v).congr (reply_sameArb h .done _)

theorem claimsAnswered_frame {w v : State} (h : ReqHdr) (changed : Frame [.claims] w v) :
    Frame ([.masterFrames, .claims] ++ arbitrated) w (claimsAnswered h v) := by
  have resolved : Frame (.claims :: arbitrated) w (rearbitrate v) :=
    changed.join (rearbitrate_frame v) (by decide) (by decide)
  exact resolved.join (reply_frame h .done _) (by decide) (by decide)

/-- The change of the table and the new resolution send no master a frame; the reply is the only one. -/
theorem claimsAnswered_replied {w v : State} (h : ReqHdr) (changed : Frame [.claims] w v) :
    Replied h .done .empty w (claimsAnswered h v) := by
  have resolved : Frame (.claims :: arbitrated) w (rearbitrate v) :=
    changed.join (rearbitrate_frame v) (by decide) (by decide)
  exact answered_replyWith (resolved .masterFrames (by decide))

/-! ## RELEASE -/

theorem doRelease_of_outside {fn : Nat} (hfn : 15 < fn) (h : ReqHdr) (s : State) :
    doRelease h fn s = reply h .badArg s := by
  have outside : ¬ isLampFn fn = true := fun lamp => absurd (isLampFn_iff.mp lamp) (Nat.not_le.mpr hfn)
  simp only [doRelease, outside, Bool.not_false, if_true]

theorem doRelease_of_unclaimed {h : ReqHdr} {fn : Nat} {s : State} (hfn : fn ≤ 15)
    (unclaimed : claimAt s (asClaimant h.station) fn = none) : doRelease h fn s = reply h .notFound s := by
  simp [doRelease, isLampFn_iff.mpr hfn, unclaimed]

theorem doRelease_of_claimed {h : ReqHdr} {fn : Nat} {s : State} (hfn : fn ≤ 15)
    (claimed : claimAt s (asClaimant h.station) fn ≠ none) :
    doRelease h fn s = claimsAnswered h (setClaim (asClaimant h.station) fn none s) := by
  simp [doRelease, claimsAnswered, isLampFn_iff.mpr hfn, claimed]

/-- Removing a claim on a lamp function leaves every other claim. -/
theorem claimAt_setClaim_none {fn : Nat} (hfn : fn ≤ 15) (c d : Claimant) (g : Nat) (s : State) :
    claimAt (setClaim c fn none s) d g = if d = c ∧ g = fn then none else claimAt s d g := by
  have lamp : fn < 16 := Nat.lt_succ_of_le hfn
  simp only [claimAt_setClaim, lamp, and_true]

/-- A RELEASE that is taken acts by its own rule on the part as it meets it. -/
theorem exec_release_of_taken {h : ReqHdr} {s : State} (taken : Taken h allMasters s) (fn : Nat) :
    exec (.release h fn) s =
      .next (settle s (react Config.reactFuel (doRelease h fn (met h (.release h fn) s)))) :=
  congrArg Host.Outcome.next (requestEvent_taken taken (.release h fn) (doRelease h fn))

/-- Settles O27, by the three cases of R111: no lamp function, no claim of the sender, and a claim of the sender. -/
theorem releaseRemovesOneClaim : Obligations.ReleaseRemovesOneClaim := by
  intro h fn s taken w
  have run := exec_release_of_taken taken fn
  refine ⟨doRelease h fn w, run, ?outside, ?unclaimed, ?claimed⟩
  case outside =>
    intro hfn
    rw [doRelease_of_outside hfn]
    exact ⟨replied_reply h .badArg w, reply_frame h .badArg w⟩
  case unclaimed =>
    intro hfn unclaimed
    rw [doRelease_of_unclaimed hfn unclaimed]
    exact ⟨replied_reply h .notFound w, reply_frame h .notFound w⟩
  case claimed =>
    intro hfn claimed
    have answer := doRelease_of_claimed hfn claimed
    have changed := setClaim_frame (asClaimant h.station) fn none w
    have table : ∀ (d : Claimant) (g : Nat), claimAt (doRelease h fn w) d g =
        if d = asClaimant h.station ∧ g = fn then none else claimAt w d g := fun d g => by
      rw [answer, claimAt_claimsAnswered, claimAt_setClaim_none hfn]
    have gone : claimAt (doRelease h fn w) (asClaimant h.station) fn = none :=
      (table _ fn).trans (if_pos ⟨rfl, rfl⟩)
    refine ⟨table, ?_, ?_, ?_, _, run, (claimAt_settle_react s _ _ _ fn).trans gone⟩
    all_goals rw [answer]
    · exact claimsAnswered_arbitrated h _
    · exact claimsAnswered_replied h changed
    · exact claimsAnswered_frame h changed

/-! ## RELEASE_ALL -/

/-- The part without the claims that a RELEASE_ALL of `m` removes: his, and for FRONT those of UNIT (R112). -/
def withoutClaimsOf (m : Master) (s : State) : State :=
  if m = .front then clearClaims .unit (clearClaims (asClaimant m) s) else clearClaims (asClaimant m) s

theorem doReleaseAll_eq (h : ReqHdr) (s : State) :
    doReleaseAll h s = claimsAnswered h (withoutClaimsOf h.station s) := rfl

theorem withoutClaimsOf_frame (m : Master) (s : State) : Frame [.claims] s (withoutClaimsOf m s) := by
  have own := clearClaims_frame (asClaimant m) s
  exact Frame.ite _ (own.trans (clearClaims_frame .unit _)) own

theorem claimAt_withoutClaimsOf (m : Master) (s : State) (d : Claimant) (g : Nat) :
    claimAt (withoutClaimsOf m s) d g =
      if d = asClaimant m ∨ (m = .front ∧ d = .unit) then none else claimAt s d g := by
  unfold withoutClaimsOf
  by_cases front : m = .front
  · by_cases unit : d = .unit <;> simp [front, unit, claimAt_clearClaims]
  · simp [front, claimAt_clearClaims]

/-- A RELEASE_ALL that is taken acts by its own rule on the part as it meets it. -/
theorem exec_releaseAll_of_taken {h : ReqHdr} {s : State} (taken : Taken h allMasters s) :
    exec (.releaseAll h) s =
      .next (settle s (react Config.reactFuel (doReleaseAll h (met h (.releaseAll h) s)))) :=
  congrArg Host.Outcome.next (requestEvent_taken taken (.releaseAll h) (doReleaseAll h))

/-- Settles O28: the claims that go are those of `withoutClaimsOf`, and the answer is that of every change of claims. -/
theorem releaseAllRemovesTheSendersClaims : Obligations.ReleaseAllRemovesTheSendersClaims := by
  intro h s taken w
  have run := exec_releaseAll_of_taken taken
  have changed := withoutClaimsOf_frame h.station w
  have table : ∀ (d : Claimant) (g : Nat), claimAt (doReleaseAll h w) d g =
      if d = asClaimant h.station ∨ (h.station = .front ∧ d = .unit) then none else claimAt w d g := fun d g => by
    rw [doReleaseAll_eq, claimAt_claimsAnswered, claimAt_withoutClaimsOf]
  have gone (g : Nat) : claimAt (doReleaseAll h w) (asClaimant h.station) g = none :=
    (table _ g).trans (if_pos (.inl rfl))
  exact ⟨doReleaseAll h w, run, table, claimsAnswered_arbitrated h _, claimsAnswered_replied h changed,
    claimsAnswered_frame h changed, _, run, fun g => (claimAt_settle_react s _ _ _ g).trans (gone g)⟩

end Sys2Proof.Machine
end

section
/-! PING and the status and list requests make one reply on the part as it stands, and nothing else (R21, R33, R35,
R191). -/

namespace Sys2Proof.Machine

/-! ## PING and UNIT_STATUS -/

theorem doPing_eq (h : ReqHdr) (s : State) :
    doPing h s = replyWith h .done (.ping s.chain.own s.cc.state (quality s) s.chain.rear) s := rfl

theorem doUnitStatus_eq (h : ReqHdr) (s : State) :
    doUnitStatus h s = replyWith h .done (.unitStatus (statusImage s)) s := rfl

/-- A PING that is taken acts by its own rule on the part as it meets it. -/
theorem exec_ping_of_taken {h : ReqHdr} {s : State} (taken : Taken h allMasters s) :
    exec (.ping h) s = .next (settle s (react Config.reactFuel (doPing h (met h (.ping h) s)))) :=
  congrArg Host.Outcome.next (requestEvent_taken taken (.ping h) (doPing h))

/-- A UNIT_STATUS that is taken acts by its own rule on the part as it meets it. -/
theorem exec_unitStatus_of_taken {h : ReqHdr} {s : State} (taken : Taken h allMasters s) :
    exec (.unitStatus h) s =
      .next (settle s (react Config.reactFuel (doUnitStatus h (met h (.unitStatus h) s)))) :=
  congrArg Host.Outcome.next (requestEvent_taken taken (.unitStatus h) (doUnitStatus h))

/-! ## FUNC_STATUS -/

theorem doFuncStatus_of_outside {fn : Nat} (hfn : 27 < fn) (h : ReqHdr) (s : State) :
    doFuncStatus h fn s = reply h .badArg s := by
  have outside : asFin 28 fn = none := asFin_of_le hfn
  simp only [doFuncStatus, outside]

theorem doFuncStatus_of_lt {fn : Nat} (hfn : fn < 28) (h : ReqHdr) (s : State) :
    doFuncStatus h fn s = replyWith h .done (.funcStatus s.plan.status[fn] (functionSubjects s fn)) s := by
  simp only [doFuncStatus, asFin_of_lt hfn, Fin.getElem_fin]

theorem doFuncStatus_frame (h : ReqHdr) (fn : Nat) (s : State) : Frame [.masterFrames] s (doFuncStatus h fn s) := by
  rcases Nat.lt_or_ge fn 28 with known | outside
  · rw [doFuncStatus_of_lt known]
    exact replyWith_frame h .done _ s
  · rw [doFuncStatus_of_outside outside]
    exact reply_frame h .badArg s

/-- A FUNC_STATUS that is taken acts by its own rule on the part as it meets it. -/
theorem exec_funcStatus_of_taken {h : ReqHdr} {s : State} (taken : Taken h allMasters s) (fn : Nat) :
    exec (.funcStatus h fn) s =
      .next (settle s (react Config.reactFuel (doFuncStatus h fn (met h (.funcStatus h fn) s)))) :=
  congrArg Host.Outcome.next (requestEvent_taken taken (.funcStatus h fn) (doFuncStatus h fn))

/-! ## REC_LIST -/

theorem doRecList_of_refused {kind : Option RecKind} {start : Nat} (bad : kind = none ∨ 39 < start) (h : ReqHdr)
    (s : State) : doRecList h kind start s = reply h .badArg s := by
  cases kind with
  | none => rfl
  | some k =>
    have above : 39 < start := bad.resolve_left (Option.some_ne_none k)
    simp only [doRecList, above, if_true]

theorem doRecList_of_le {start : Nat} (hstart : start ≤ 39) (h : ReqHdr) (k : RecKind) (s : State) :
    doRecList h (some k) start s =
      replyWith h .done (.recList ((tagsOfKind s k start).take 20) (tagsOfKind s k start)[20]?) s := by
  simp only [doRecList, Nat.not_lt.mpr hstart, if_false]

theorem doRecList_frame (h : ReqHdr) (kind : Option RecKind) (start : Nat) (s : State) :
    Frame [.masterFrames] s (doRecList h kind start s) := by
  cases kind with
  | none => exact reply_frame h .badArg s
  | some k =>
    rcases Nat.lt_or_ge 39 start with above | within
    · rw [doRecList_of_refused (.inr above)]
      exact reply_frame h .badArg s
    · rw [doRecList_of_le within]
      exact replyWith_frame h .done _ s

/-- A REC_LIST that is taken acts by its own rule on the part as it meets it. -/
theorem exec_recList_of_taken {h : ReqHdr} {s : State} (taken : Taken h allMasters s) (kind : Option RecKind)
    (start : Nat) :
    exec (.recList h kind start) s =
      .next (settle s (react Config.reactFuel (doRecList h kind start (met h (.recList h kind start) s)))) :=
  congrArg Host.Outcome.next (requestEvent_taken taken (.recList h kind start) (doRecList h kind start))

/-! ## PROBE_STATUS -/

theorem onSeq_of_outside {sq : Nat} (hsq : 3 < sq) (h : ReqHdr) (f : Fin 4 → State → State) (s : State) :
    onSeq h sq f s = reply h .badArg s := by
  have outside : asFin 4 sq = none := asFin_of_le hsq
  simp only [onSeq, outside, Option.elim_none]

theorem onSeq_of_lt {sq : Nat} (hsq : sq < 4) (h : ReqHdr) (f : Fin 4 → State → State) (s : State) :
    onSeq h sq f s = f ⟨sq, hsq⟩ s := by
  simp only [onSeq, asFin_of_lt hsq, Option.elim_some]

theorem doProbeStatus_of_outside {sq : Nat} (hsq : 3 < sq) (h : ReqHdr) (s : State) :
    doProbeStatus h sq s = reply h .badArg s := onSeq_of_outside hsq h _ s

theorem doProbeStatus_of_lt {sq : Nat} (hsq : sq < 4) (h : ReqHdr) (s : State) :
    doProbeStatus h sq s = replyWith h .done (.probeStatus (probeImage s ⟨sq, hsq⟩)) s := onSeq_of_lt hsq h _ s

theorem doProbeStatus_frame (h : ReqHdr) (sq : Nat) (s : State) : Frame [.masterFrames] s (doProbeStatus h sq s) := by
  rcases Nat.lt_or_ge sq 4 with known | outside
  · rw [doProbeStatus_of_lt known]
    exact replyWith_frame h .done _ s
  · rw [doProbeStatus_of_outside outside]
    exact reply_frame h .badArg s

/-- A PROBE_STATUS of SERVICE that is taken acts by its own rule on the part as it meets it. -/
theorem exec_probeStatus_of_taken {h : ReqHdr} {s : State} (taken : Taken h [.service] s) (sq : Nat) :
    exec (.probeStatus h sq) s =
      .next (settle s (react Config.reactFuel (doProbeStatus h sq (met h (.probeStatus h sq) s)))) :=
  congrArg Host.Outcome.next (requestEvent_taken taken (.probeStatus h sq) (doProbeStatus h sq))

/-- A request of SERVICE that is taken passes the station step of every request that SERVICE may send (R188). -/
theorem Taken.of_service {h : ReqHdr} {s : State} {allowed : List Master} (taken : Taken h allowed s)
    (service : h.station = .service) : Taken h [.service] s := by
  obtain ⟨reaches, _, free⟩ := taken
  exact ⟨reaches, List.mem_singleton.mpr service, free⟩

/-- Settles O16, request by request: each acts as one reply, DONE with what it reads or BAD_ARG. -/
theorem readingRequestsAnswer : Obligations.ReadingRequestsAnswer := by
  intro h s taken
  refine ⟨?ping, ?unitStatus, ?funcStatus, ?recList, ?probeStatus⟩
  case ping =>
    refine ⟨_, exec_ping_of_taken taken, ?_⟩
    rw [doPing_eq]
    exact ⟨replied_replyWith h .done _ _, replyWith_frame h .done _ _⟩
  case unitStatus =>
    refine ⟨_, exec_unitStatus_of_taken taken, ?_⟩
    rw [doUnitStatus_eq]
    exact ⟨replied_replyWith h .done _ _, replyWith_frame h .done _ _⟩
  case funcStatus =>
    intro fn
    refine ⟨_, exec_funcStatus_of_taken taken fn, doFuncStatus_frame h fn _, fun outside => ?_, fun known => ?_⟩
    · rw [doFuncStatus_of_outside outside]
      exact replied_reply h .badArg _
    · rw [doFuncStatus_of_lt known]
      exact replied_replyWith h .done _ _
  case recList =>
    intro kind start
    refine ⟨_, exec_recList_of_taken taken kind start, doRecList_frame h kind start _, fun bad => ?_, ?_⟩
    · rw [doRecList_of_refused bad]
      exact replied_reply h .badArg _
    · rintro k rfl within
      rw [doRecList_of_le within]
      exact replied_replyWith h .done _ _
  case probeStatus =>
    intro service sq
    refine ⟨_, exec_probeStatus_of_taken (taken.of_service service) sq, doProbeStatus_frame h sq _,
      fun outside => ?_, fun known => ?_⟩
    · rw [doProbeStatus_of_outside outside]
      exact replied_reply h .badArg _
    · rw [doProbeStatus_of_lt known]
      exact replied_replyWith h .done _ _

end Sys2Proof.Machine
end
